-- ==== Sys2Proof/Word.lean ====
section
/-! DEFINITION. The words the block moves (00_scope.md R8) and the one piece of syntax that instructions share. -/

namespace Sys2Proof

/-- A byte is 8 bits (R8). -/
abbrev Byte := BitVec 8

/-- The device offset a frame carries is 24 bits (R8). -/
abbrev Offset := BitVec 24

/-- The body of a `DEVICE_OP`: "one issue_write or issue_read" (41_command_layer.md R182), with its operands. -/
inductive TransferBody where
  /-- `issue_write(frame, n_cmd)`, R172. -/
  | write (frame : List Byte) (nCmd : Nat)
  /-- `issue_read(cmd, n_resp)`, R173. -/
  | read (cmd : List Byte) (nResp : Nat)
deriving DecidableEq, Repr

end Sys2Proof
end

