-- ==== Sys2Proof/Config.lean ====
section
/-! DEFINITION. The implementation parameters of 00_scope.md R9, as plain data, and the free values (`draw()`). -/

namespace Sys2Proof

/-- Device Geometry (10_state.md R49): a page has `2^pageShift` bytes and the device `pageCount` pages. -/
structure Geometry where
  pageShift : Nat
  pageCount : Nat
deriving DecidableEq, Repr

/-- Bytes in a page. -/
def Geometry.pageSize (g : Geometry) : Nat := 2 ^ g.pageShift

/-- Bytes in the array: page size times page count (R53, R73). -/
def Geometry.capacity (g : Geometry) : Nat := 2 ^ g.pageShift * g.pageCount

/-- `BUSY_POLICY` (R3, R9). -/
inductive BusyPolicy where
  | preOperation
  | postOperation
deriving DecidableEq, Repr

/-- `POWER_POLICY` (R3, R9). -/
inductive PowerPolicy where
  | alwaysOn
  | sleepBetweenOperations
deriving DecidableEq, Repr

/-- `PROGRAM_SEMANTICS` (R9, R231). -/
inductive ProgramSemantics where
  | overwrite
  | andWithExisting
deriving DecidableEq, Repr

/-- The device's page layout (10_state.md R56). -/
inductive PageFormat where
  | pow2
  | legacy
deriving DecidableEq, Repr

/-- One of the two fixed 4-byte sequences (R8, R9). -/
structure Seq4 where
  s0 : Byte
  s1 : Byte
  s2 : Byte
  s3 : Byte
deriving DecidableEq, Repr

/-- The bytes of a sequence in wire order. -/
def Seq4.bytes (q : Seq4) : List Byte := [q.s0, q.s1, q.s2, q.s3]

/-- The parameters of R9, those of the attached device among them. `devPresent` is the model's own (log 10): R177,
R221 and R264 speak of a missing device, and R9 has no parameter for it. -/
structure Config where
  bufCap : Nat
  /-- `FILLER`, a parameter with the recorded value `0xFF` (R7, R9). -/
  filler : Byte
  /-- `ID_READ_LEN`, which R9 gives the value 3. -/
  idReadLen : Nat
  opcIdentify : Byte
  opcStatus : Byte
  opcFastRead : Byte
  opcProgThruBuf : Byte
  opcPageErase : Byte
  opcBlockErase : Byte
  opcBufWrite : Byte
  opcBufRead : Byte
  opcBufToMainErase : Byte
  opcMainToBuf : Byte
  opcPowerDown : Byte
  opcResume : Byte
  seqChipErase : Seq4
  seqPow2 : Seq4
  mfrId : Byte
  familyWidth : Nat
  familyValue : Nat
  capCode : Vector Nat 7
  geom : Vector Geometry 7
  readyBit : Fin 8
  readyWhen : Bool
  pagesizeBit : Fin 8
  pow2When : Bool
  busyPolicy : BusyPolicy
  powerPolicy : PowerPolicy
  tPoll : Nat
  tResume : Nat
  waitReadyBound : Option Nat
  programSemantics : ProgramSemantics
  readWrap : Bool
  admitBufferCmds : Bool
  devPresent : Bool
  devId : List Byte
  devGeom : Geometry
  devInitialFormat : PageFormat
  devEventuallyReady : Bool
deriving DecidableEq, Repr

/-- The twelve one-byte opcodes and the first bytes of the two sequences (R120). -/
def Config.firstBytes (c : Config) : List Byte :=
  [c.opcIdentify, c.opcStatus, c.opcFastRead, c.opcProgThruBuf, c.opcPageErase, c.opcBlockErase, c.opcBufWrite,
   c.opcBufRead, c.opcBufToMainErase, c.opcMainToBuf, c.opcPowerDown, c.opcResume, c.seqChipErase.s0, c.seqPow2.s0]

/-- No byte occurs twice. -/
def allDistinct : List Byte → Bool
  | [] => true
  | b :: rest => !rest.contains b && allDistinct rest

/-- R120: the fourteen first bytes are pairwise distinct. The model refuses a configuration that breaks this. -/
def Config.firstBytesDistinct (c : Config) : Bool := allDistinct c.firstBytes

/-- P-config of 70_reset_and_hazards.md R322: R120, `READY_BIT ≠ PAGESIZE_BIT`, R179's constraints on the presets,
and the ranges and the definite value (`ID_READ_LEN` 3) of R9's table. `FILLER`'s `0xFF` is an example value (R7) and
no constraint. -/
def Config.wf (c : Config) : Bool :=
  c.firstBytesDistinct && decide (5 ≤ c.bufCap) && decide (1 ≤ c.familyWidth ∧ c.familyWidth ≤ 7) &&
  decide (c.familyValue < 2 ^ c.familyWidth) &&
  decide (∀ k : Fin 7, c.capCode[k] < 2 ^ (8 - c.familyWidth)) &&
  decide (∀ j k : Fin 7, c.capCode[j] = c.capCode[k] → j = k) &&
  decide (∀ k : Fin 7, 8 ≤ c.geom[k].pageShift ∧ c.geom[k].pageShift ≤ 10 ∧
    c.geom[k].capacity = 2 ^ (17 + k.val)) &&
  decide (c.geom[2] = ⟨8, 2048⟩) && decide (c.readyBit ≠ c.pagesizeBit) &&
  decide (c.waitReadyBound ≠ some 0) && decide (c.idReadLen = 3) && decide (3 ≤ c.devId.length)

/-- `draw()` of one byte: the n-th value drawn. It has no body, so no proof can see what it is (log 6). -/
opaque Config.freeByte : Nat → Byte

/-- `draw()` of a whole space: byte `i` of the n-th space drawn (log 4, log 6). -/
opaque Config.freeFillByte : Nat → Nat → Byte

/-- The parameter values State.reset stands at: R9's informative and example values and 95_test_vectors.md's set TP
(log 2, DESIGN CHOICE: the spec leaves them OPEN). -/
def Config.informative : Config where
  bufCap := 1100
  filler := 0xFF
  idReadLen := 3
  opcIdentify := 0x9F
  opcStatus := 0xD7
  opcFastRead := 0x0B
  opcProgThruBuf := 0x82
  opcPageErase := 0x81
  opcBlockErase := 0x50
  opcBufWrite := 0x84
  opcBufRead := 0xD4
  opcBufToMainErase := 0x83
  opcMainToBuf := 0x53
  opcPowerDown := 0xB9
  opcResume := 0xAB
  seqChipErase := ⟨0xC7, 0x94, 0x80, 0x9A⟩
  seqPow2 := ⟨0x3D, 0x2A, 0x80, 0xA6⟩
  mfrId := 0x1F
  familyWidth := 3
  familyValue := 1
  capCode := #v[2, 3, 4, 5, 6, 7, 8]
  geom := #v[⟨8, 512⟩, ⟨8, 1024⟩, ⟨8, 2048⟩, ⟨8, 4096⟩, ⟨9, 4096⟩, ⟨9, 8192⟩, ⟨10, 8192⟩]
  readyBit := 7
  readyWhen := true
  pagesizeBit := 0
  pow2When := true
  busyPolicy := .postOperation
  powerPolicy := .alwaysOn
  tPoll := 0
  tResume := 0
  waitReadyBound := none
  programSemantics := .overwrite
  readWrap := false
  admitBufferCmds := false
  devPresent := true
  devId := [0x1F, 0x21, 0x00]
  devGeom := ⟨8, 2048⟩
  devInitialFormat := .pow2
  devEventuallyReady := true

end Sys2Proof
end

