-- ==== Sys2Proof/Syntax.lean ====
section
/-! DEFINITION. The instructions: one constructor per row of spec/opcode_table.json. -/

namespace Sys2Proof

/-- The instructions of this hardware are of three kinds (00_scope.md R6): device command frames, Transfer Engine
calls and agent steps, and Flash Command Layer operations. A frame's response bytes are counted, not held: the device
drives them (30_encoding.md R101). -/
inductive Instr where
  -- device command frames (30_encoding.md section 3)
  | identifyFrame (nResp : Nat)                               -- R106
  | readStatusFrame (nResp : Nat)                             -- R107
  | fastReadFrame (off : Offset) (nResp : Nat)                -- R108
  | pageProgramFrame (off : Offset) (payload : List Byte)     -- R109
  | pageEraseFrame (off : Offset)                             -- R110
  | chipEraseFrame                                            -- R111
  | blockEraseFrame (off : Offset)                            -- R112
  | bufferWriteFrame (off : Offset) (payload : List Byte)     -- R113
  | bufferReadFrame (off : Offset) (nResp : Nat)              -- R114
  | bufferToMainFrame (off : Offset)                          -- R115
  | mainToBufferFrame (off : Offset)                          -- R116
  | powerDownFrame                                            -- R117
  | resumeFrame                                               -- R118
  | pageSizePow2Frame                                         -- R119
  -- bus shifter and Transfer Engine (40_transfer_engine.md)
  | busStep                                                   -- R141
  | teWrite (nCmd nData : Nat)                                -- R143
  | teRead (nCmd nResp : Nat)                                 -- R144
  | byteComplete                                              -- R145
  -- Flash Command Layer operations (41_command_layer.md)
  | issueWrite (frame : List Byte) (nCmd : Nat)               -- R172
  | issueRead (cmd : List Byte) (nResp : Nat)                 -- R173
  | waitReady                                                 -- R175
  | identify                                                  -- R177
  | decodeId (id : List Byte)                                 -- R178
  | pageOffset (pageIndex : Nat)                              -- R181
  | deviceOp (body : TransferBody) (makesBusy : Bool)         -- R182
  | erasePage (pageIndex : Nat)                               -- R183
  | eraseChip                                                 -- R184
  | programPage (pageIndex : Nat) (buffer : List Byte)        -- R185
  | eraseBlocks (startBlock count : Nat)                      -- R186
  | programBlocks (startBlock count : Nat) (buffer : List Byte) -- R187
  | readBytes (offset length : Nat)                           -- R188
  | powerDown                                                 -- R189
  | resume                                                    -- R190
  | reprogramPageSize                                         -- R191
  | init                                                      -- R192
  -- device agent (42_device_frames.md section 1)
  | deviceExchange (b : Byte)                                 -- R220
  | commit                                                    -- R222
  | deviceComplete                                            -- R225
deriving DecidableEq, Repr

/-- The operation a `DEVICE_OP` body is (R182 step 3). -/
def TransferBody.instr : TransferBody → Instr
  | .write frame nCmd => .issueWrite frame nCmd
  | .read cmd nResp => .issueRead cmd nResp

/-- The instruction is a device command frame, the only byte-encoded kind (30_encoding.md). -/
def Instr.isFrame : Instr → Bool
  | .identifyFrame _ | .readStatusFrame _ | .fastReadFrame _ _ | .pageProgramFrame _ _ | .pageEraseFrame _
  | .chipEraseFrame | .blockEraseFrame _ | .bufferWriteFrame _ _ | .bufferReadFrame _ _ | .bufferToMainFrame _
  | .mainToBufferFrame _ | .powerDownFrame | .resumeFrame | .pageSizePow2Frame => true
  | .busStep | .teWrite _ _ | .teRead _ _ | .byteComplete | .issueWrite _ _ | .issueRead _ _ | .waitReady | .identify
  | .decodeId _ | .pageOffset _ | .deviceOp _ _ | .erasePage _ | .eraseChip | .programPage _ _ | .eraseBlocks _ _
  | .programBlocks _ _ _ | .readBytes _ _ | .powerDown | .resume | .reprogramPageSize | .init | .deviceExchange _
  | .commit | .deviceComplete => false

/-- The instruction is an operation of the Flash Command Layer (41_command_layer.md). -/
def Instr.isFclOp : Instr → Bool
  | .issueWrite _ _ | .issueRead _ _ | .waitReady | .identify | .decodeId _ | .pageOffset _ | .deviceOp _ _
  | .erasePage _ | .eraseChip | .programPage _ _ | .eraseBlocks _ _ | .programBlocks _ _ _ | .readBytes _ _
  | .powerDown | .resume | .reprogramPageSize | .init => true
  | .identifyFrame _ | .readStatusFrame _ | .fastReadFrame _ _ | .pageProgramFrame _ _ | .pageEraseFrame _
  | .chipEraseFrame | .blockEraseFrame _ | .bufferWriteFrame _ _ | .bufferReadFrame _ _ | .bufferToMainFrame _
  | .mainToBufferFrame _ | .powerDownFrame | .resumeFrame | .pageSizePow2Frame | .busStep | .teWrite _ _
  | .teRead _ _ | .byteComplete | .deviceExchange _ | .commit | .deviceComplete => false

/-- The operations a caller of the block may start (30_encoding.md R126, 70_reset_and_hazards.md R321). -/
def Instr.isTopLevel : Instr → Bool
  | .waitReady | .identify | .erasePage _ | .eraseChip | .programPage _ _ | .eraseBlocks _ _
  | .programBlocks _ _ _ | .readBytes _ _ | .powerDown | .resume | .reprogramPageSize | .init => true
  | .issueWrite _ _ | .issueRead _ _ | .decodeId _ | .pageOffset _ | .deviceOp _ _ | .identifyFrame _
  | .readStatusFrame _ | .fastReadFrame _ _ | .pageProgramFrame _ _ | .pageEraseFrame _ | .chipEraseFrame
  | .blockEraseFrame _ | .bufferWriteFrame _ _ | .bufferReadFrame _ _ | .bufferToMainFrame _ | .mainToBufferFrame _
  | .powerDownFrame | .resumeFrame | .pageSizePow2Frame | .busStep | .teWrite _ _ | .teRead _ _ | .byteComplete
  | .deviceExchange _ | .commit | .deviceComplete => false

end Sys2Proof
end

