-- ==== Sys2Proof/WellFormed.lean ====
section
/-! DEFINITION. The operand checks the spec states for an instruction as syntax. Checks that depend on the state
(page range, buffer length against the geometry, capacity) are faults of the meanings, not syntax. -/

namespace Sys2Proof

/-- `1 ≤ n_cmd ≤ len(frame)` for a write (R172); a command list of length at least 1 for a read (R173). -/
def TransferBody.wf : TransferBody → Bool
  | .write frame nCmd => decide (1 ≤ nCmd) && decide (nCmd ≤ frame.length)
  | .read cmd _ => decide (1 ≤ cmd.length)

/-- The operand ranges of R125 (`n_cmd ≥ 1`), R172, R173, R178 (3 bytes) and R182. -/
def Instr.wf : Instr → Bool
  | .teWrite nCmd _ => decide (1 ≤ nCmd)
  | .teRead nCmd _ => decide (1 ≤ nCmd)
  | .issueWrite frame nCmd => (TransferBody.write frame nCmd).wf
  | .issueRead cmd nResp => (TransferBody.read cmd nResp).wf
  | .decodeId id => decide (id.length = 3)
  | .deviceOp body _ => body.wf
  | .identifyFrame _ | .readStatusFrame _ | .fastReadFrame _ _ | .pageProgramFrame _ _ | .pageEraseFrame _
  | .chipEraseFrame | .blockEraseFrame _ | .bufferWriteFrame _ _ | .bufferReadFrame _ _ | .bufferToMainFrame _
  | .mainToBufferFrame _ | .powerDownFrame | .resumeFrame | .pageSizePow2Frame | .busStep | .byteComplete
  | .waitReady | .identify | .pageOffset _ | .erasePage _ | .eraseChip | .programPage _ _ | .eraseBlocks _ _
  | .programBlocks _ _ _ | .readBytes _ _ | .powerDown | .resume | .reprogramPageSize | .init | .deviceExchange _
  | .commit | .deviceComplete => true

end Sys2Proof
end

