-- ==== Sys2Proof/Decode.lean ====
section
/-! DEFINITION. Frames as bytes on the wire (30_encoding.md sections 1 to 4): the decoder, total on any bytes,
rejecting by name, and the encoder written from the same formats. -/

namespace Sys2Proof

/-- Why the device's decoder rejects a frame. -/
inductive DecodeError where
  /-- No byte was shifted: `COMMIT` treats this as an empty select (R222). -/
  | emptyFrame
  /-- R122, R242: the first byte is none of the fourteen, or a 4-byte sequence is broken. -/
  | unknownCommand
  /-- R123, R243: shorter than the format's head or longer than its fixed length. -/
  | malformedFrame
deriving DecidableEq, Repr

/-- `addr3(off)`: the offset's bytes, most significant first (R77, R102, R174). -/
def addr3 (off : Offset) : List Byte :=
  [off.extractLsb' 16 8, off.extractLsb' 8 8, off.extractLsb' 0 8]

/-- The device's reassembly of the offset from frame bytes 1 to 3 (R102). -/
def offsetOf (a b c : Byte) : Offset := a ++ b ++ c

/-- F-OP1: the opcode alone (R101). -/
def decodeOp1 (i : Instr) : List Byte → Except DecodeError Instr
  | [] => .ok i
  | _ :: _ => .error .malformedFrame

/-- F-ADDR: exactly three offset bytes after the opcode (R101). -/
def decodeAddr (mk : Offset → Instr) : List Byte → Except DecodeError Instr
  | [a, b, c] => .ok (mk (offsetOf a b c))
  | _ => .error .malformedFrame

/-- F-PROG: three offset bytes, then the payload (R101). -/
def decodeProg (mk : Offset → List Byte → Instr) : List Byte → Except DecodeError Instr
  | a :: b :: c :: payload => .ok (mk (offsetOf a b c) payload)
  | _ => .error .malformedFrame

/-- F-RD: three offset bytes, the dummy byte, then one byte for each response byte (R101, R104). -/
def decodeRead (mk : Offset → Nat → Instr) : List Byte → Except DecodeError Instr
  | a :: b :: c :: _ :: tail => .ok (mk (offsetOf a b c) tail.length)
  | _ => .error .malformedFrame

/-- F-SEQ4 after its first byte: a byte that differs from the sequence breaks it (R242); a frame that agrees as far
as it goes but is shorter or longer is malformed (R243). DEDUCED: log 9. -/
def decodeSeq4 (q : Seq4) (i : Instr) (rest : List Byte) : Except DecodeError Instr :=
  let tail := [q.s1, q.s2, q.s3]
  if rest.take 3 = tail.take rest.length then
    if rest.length = 3 then .ok i else .error .malformedFrame
  else .error .unknownCommand

/-- The device's decoder: byte 0 tells the kind (R120, R121). -/
def decode (c : Config) : List Byte → Except DecodeError Instr
  | [] => .error .emptyFrame
  | op :: rest =>
    if op = c.opcIdentify then .ok (.identifyFrame rest.length)
    else if op = c.opcStatus then .ok (.readStatusFrame rest.length)
    else if op = c.opcFastRead then decodeRead .fastReadFrame rest
    else if op = c.opcProgThruBuf then decodeProg .pageProgramFrame rest
    else if op = c.opcPageErase then decodeAddr .pageEraseFrame rest
    else if op = c.opcBlockErase then decodeAddr .blockEraseFrame rest
    else if op = c.opcBufWrite then decodeProg .bufferWriteFrame rest
    else if op = c.opcBufRead then decodeRead .bufferReadFrame rest
    else if op = c.opcBufToMainErase then decodeAddr .bufferToMainFrame rest
    else if op = c.opcMainToBuf then decodeAddr .mainToBufferFrame rest
    else if op = c.opcPowerDown then decodeOp1 .powerDownFrame rest
    else if op = c.opcResume then decodeOp1 .resumeFrame rest
    else if op = c.seqChipErase.s0 then decodeSeq4 c.seqChipErase .chipEraseFrame rest
    else if op = c.seqPow2.s0 then decodeSeq4 c.seqPow2 .pageSizePow2Frame rest
    else .error .unknownCommand

/-- The bytes the driver shifts for a frame (R101): `FILLER` stands at the dummy and at each response position.
`none` for an instruction that is no frame. -/
def encode (c : Config) : Instr → Option (List Byte)
  | .identifyFrame n => some (c.opcIdentify :: List.replicate n c.filler)
  | .readStatusFrame n => some (c.opcStatus :: List.replicate n c.filler)
  | .fastReadFrame off n => some (c.opcFastRead :: (addr3 off ++ c.filler :: List.replicate n c.filler))
  | .pageProgramFrame off payload => some (c.opcProgThruBuf :: (addr3 off ++ payload))
  | .pageEraseFrame off => some (c.opcPageErase :: addr3 off)
  | .chipEraseFrame => some c.seqChipErase.bytes
  | .blockEraseFrame off => some (c.opcBlockErase :: addr3 off)
  | .bufferWriteFrame off payload => some (c.opcBufWrite :: (addr3 off ++ payload))
  | .bufferReadFrame off n => some (c.opcBufRead :: (addr3 off ++ c.filler :: List.replicate n c.filler))
  | .bufferToMainFrame off => some (c.opcBufToMainErase :: addr3 off)
  | .mainToBufferFrame off => some (c.opcMainToBuf :: addr3 off)
  | .powerDownFrame => some [c.opcPowerDown]
  | .resumeFrame => some [c.opcResume]
  | .pageSizePow2Frame => some c.seqPow2.bytes
  | .busStep | .teWrite _ _ | .teRead _ _ | .byteComplete | .issueWrite _ _ | .issueRead _ _ | .waitReady | .identify
  | .decodeId _ | .pageOffset _ | .deviceOp _ _ | .erasePage _ | .eraseChip | .programPage _ _ | .eraseBlocks _ _
  | .programBlocks _ _ _ | .readBytes _ _ | .powerDown | .resume | .reprogramPageSize | .init | .deviceExchange _
  | .commit | .deviceComplete => none

/-- The `n` bytes of a table word, the first on the wire most significant: the table's 4-byte rows are read as one
number whose top byte is wire byte 0 (98_reader.md; `match` C794809A is the sequence C7 94 80 9A). DEDUCED: log 12. -/
def tableBytes : Nat → Nat → List Byte
  | 0, _ => []
  | n + 1, w => BitVec.ofNat 8 (w / 256 ^ n) :: tableBytes n w

/-- How long the frame of a table row is when its operand bytes are zero: the head of its format (R121), and the
response or payload bytes the row itself counts (3 for IDENTIFY, 1 for READ_STATUS, a page for PAGE_PROGRAM_THROUGH_BUFFER). -/
def tableFrameLength (c : Config) (op : Byte) : Nat :=
  if op = c.opcIdentify then 1 + c.idReadLen
  else if op = c.opcStatus then 2
  else if op = c.opcFastRead ∨ op = c.opcBufRead then 5
  else if op = c.opcProgThruBuf then 4 + c.devGeom.pageSize
  else if op = c.opcPowerDown ∨ op = c.opcResume then 1
  else 4

/-- The frame a table row's word stands for: its bytes, then zeros up to the frame's length. -/
def tableFrame (c : Config) (nbits w : Nat) : List Byte :=
  match tableBytes (nbits / 8) w with
  | [] => []
  | op :: rest => op :: (rest ++ List.replicate (tableFrameLength c op - 1 - rest.length) 0)

/-- The instruction the decoder reads from a table word, at the informative opcodes the table is written in. -/
def decodeTableWord (nbits w : Nat) : Option Instr :=
  match decode Config.informative (tableFrame Config.informative nbits w) with
  | .ok i => some i
  | .error _ => none

end Sys2Proof
end

