-- ==== Sys2Proof/Machine/State.lean ====
section
/-! DEFINITION. The state of the block and its environment (10_state.md R30), as plain data, and the state after reset. -/

namespace Sys2Proof.Machine

/-- `desc.mode` (R31): "tagged state, not free-form flags". -/
inductive Mode where
  | idle
  | sendingCommandBytes
  | sendingDataBytes
  | receivingDataBytes
deriving DecidableEq, Repr

/-- The Transfer Descriptor (R31 to R37). -/
structure Descriptor where
  mode : Mode
  commandByte : Byte
  txCursor : Nat
  txRemaining : Nat
  rxCursor : Nat
  rxRemaining : Nat
  cmdRemaining : Nat
deriving DecidableEq, Repr

/-- `fg` (R43): the foreground runs, or waits in low power. -/
inductive Foreground where
  | running
  | asleep
deriving DecidableEq, Repr

/-- `bus.state` (R45): at most one byte is being exchanged. -/
inductive BusState where
  | ready
  | shifting (b : Byte)
deriving DecidableEq, Repr

/-- The serial bus shifter (R45 to R47). -/
structure Bus where
  state : BusState
  irqPending : Bool
  rx : Byte
deriving DecidableEq, Repr

/-- The chip-select line (R48): `low` selects the device. -/
inductive ChipSelect where
  | low
  | high
deriving DecidableEq, Repr

/-- The error kinds an operation returns (60_exceptions.md R265). -/
inductive ErrorKind where
  | unrecognizedDevice
  | legacyPageFormat
  | timeout
deriving DecidableEq, Repr

/-- The `v` of `Ok(v)`, one constructor for each kind of value the operations return (30_encoding.md R126). -/
inductive Value where
  | unit
  | byte (b : Byte)
  | bytes (l : List Byte)
  | geometry (g : Geometry)
  | count (n : Nat)
  | offset (n : Nat)
  /-- `decode_id`: the preset's index, or none. -/
  | preset (k : Option (Fin 7))
deriving DecidableEq, Repr

/-- What an operation ends with (R265). -/
inductive Result where
  | ok (v : Value)
  | err (kind : ErrorKind)
deriving DecidableEq, Repr

/-- `fcl.pc` (R51, R67): the operation, with its arguments, and the number of its next step. -/
structure Pc where
  op : Instr
  step : Nat
deriving DecidableEq, Repr

/-- `fcl.locals` (R51), for all operations together; an operation uses the ones its pseudocode names. -/
structure Locals where
  /-- What the operation called by the current step returned, before the step continues. -/
  ret : Option Result := none
  /-- `off` of R183 and R185. -/
  off : Nat := 0
  /-- `i` of R186 and R187. -/
  index : Nat := 0
  /-- `P` of R187. -/
  pageSize : Nat := 0
  /-- `polls` of R175. -/
  polls : Nat := 0
  /-- `s` of R175 and R192. -/
  status : Byte := 0
  /-- `id` of R177. -/
  id : List Byte := []
  /-- `k` of R177. -/
  preset : Option (Fin 7) := none
  /-- `r` of R182 and R188. -/
  value : Value := .unit
  /-- How far step 5 of `DEVICE_OP` has come (R182): 0 at its start, 1 in its wait, 2 in its power-down. -/
  phase : Nat := 0
deriving DecidableEq, Repr

/-- An entry of `fcl.stack` (R51): a calling operation. -/
structure Activation where
  pc : Pc
  locals : Locals
deriving DecidableEq, Repr

/-- The Flash Command Layer's state (R49 to R52). `pc = none` is "at no operation" (70 R320). `results` holds what
every top-level operation since the reset returned, in order: the observation of 70 R320 (log 14). -/
structure Fcl where
  geometry : Option Geometry
  pc : Option Pc
  locals : Locals
  stack : List Activation
  results : List Result
deriving DecidableEq, Repr

/-- `fcl.result` (R52): what the last completed top-level operation returned, or none before any. -/
def Fcl.result (f : Fcl) : Option Result := f.results.getLast?

/-- What the bytes of a space that nothing has written since are (log 4). -/
inductive Background where
  /-- Any value: the n-th space drawn (`draw()` of 70 R303, 42 R245). -/
  | drawn (n : Nat)
  /-- The erased pattern `0xFF` (42 R233, R246). -/
  | erased
deriving DecidableEq, Repr

/-- The device array (R53): the cells written since the background was laid, addresses strictly rising. -/
structure Memory where
  background : Background
  cells : List Host.Cell
deriving DecidableEq, Repr

/-- `dev.power` (R55). -/
inductive Power where
  | active
  | poweredDown
deriving DecidableEq, Repr

/-- The flash device (R53 to R59); `dev.id` and `dev.geom` are the configuration's. -/
structure Device where
  array : Memory
  busy : Bool
  power : Power
  format : PageFormat
  pow2Pending : Bool
  frame : List Byte
  pagebuf : List Byte
deriving DecidableEq, Repr

/-- The model faults of 60_exceptions.md R267, which a faulting step records (R268). -/
inductive FaultName where
  | transferInFlight
  | emptyFrame
  | bufferOverflow
  | busOverrun
  | spuriousByteComplete
  | bufferAccessDuringTransfer
  | geometryUnset
  | pageOutOfRange
  | badBufferLength
  | readOutOfRange
  | deviceBusyCommand
  | devicePoweredDownCommand
  | unknownCommand
  | malformedFrame
  | legacyAddressing
  | addressOutOfRange
  | unmodelledCommand
deriving DecidableEq, Repr

/-- One `emit` record (R62, 41 R194): the values the text reports; the text itself is not normative. -/
inductive TraceRecord where
  | identification (id : List Byte)
  | pageOffset (pageIndex off : Nat)
  | chipErase
  | readRange (offset length : Nat)
  | unrecognized
  | legacyPageFormat
  | initOk
deriving DecidableEq, Repr

/-- The agents that take steps of their own (00 R6, 60 R271). -/
inductive Agent where
  | fcl
  | handler
  | bus
  | device
deriving DecidableEq, Repr

/-- What happens next: an agent moves, or the host does (70 R321). -/
inductive Move where
  | agent (a : Agent)
  /-- The host starts the next call of its list. -/
  | startCall
  /-- The host power-cycles, and begins a launch with the list `calls` (70 R320). -/
  | powerCycle (calls : List Instr)
deriving DecidableEq, Repr

/-- The state of the model (R30), with four fields that are the model's own: `cfg`, the parameters, which no step
writes (log 1); `env`, the moves to come (log 3); `calls`, the calls of the launch's list `L` that the host has yet to
start (70 R320, log 14); `draws`, how many free values have been drawn (log 6). -/
structure State where
  cfg : Config
  desc : Descriptor
  tx : List Byte
  rx : List Byte
  fg : Foreground
  bus : Bus
  cs : ChipSelect
  fcl : Fcl
  dev : Device
  trace : List TraceRecord
  faults : List FaultName
  env : List Move
  calls : List Instr
  draws : Nat
deriving DecidableEq, Repr

/-- Why the machine stops. -/
inductive Fault where
  /-- Raised by `step` alone, once a fault is recorded: "no agent has a step" (60 R268). Safe. -/
  | stopped (f : FaultName)
  /-- Raised by the buffer accesses of the engine and the FCL, at an index at or past the buffer's end, which 20 R71
  and R72 say does not exist. Unreachable while the bounds of 10 R42 hold. Safe. -/
  | bufferIndex
deriving DecidableEq, Repr

/-- Why a state or an instruction has no meaning in the model. -/
inductive Refusal where
  /-- Raised by an arm of `exec` for an instruction without a meaning. Safe. -/
  | notModelled (mnemonic : String)
  /-- Raised by `step` when the fourteen first bytes are not distinct: "a model refuses a configuration that breaks
  this" (30 R120). Safe. -/
  | illFormedConfiguration
  /-- Raised by the agents' steps when their enabling condition is false (R141, R145, R170, R225): there is no such
  step to take. `step` never runs one. Safe. -/
  | notEnabled
  /-- Raised by an FCL operation while another one is the current one: the host may start an operation only when none
  runs (70 R321). `step` never does. Safe. -/
  | operationRunning
  /-- Raised by an FCL operation at a step number, or with a called operation's value, that its pseudocode does not
  have. No run reaches one. Safe. -/
  | noSuchStep
  /-- Raised by `issue_write` when `n_cmd` exceeds the frame's length, which R172's operand range excludes: the
  payload count `len(frame) - n_cmd` is then no natural number. Safe. -/
  | payloadCountNegative
  /-- Raised by `erase_page` and `program_page` when the page's offset needs more than 24 bits: "the FCL encodes an
  offset only when off < 2^24" (30 R103). No preset of R179 gives one. Safe. -/
  | offsetNotEncodable
  /-- Raised by `COMMIT` if the decoder answered an instruction that is no frame; it never does. Safe. -/
  | notAFrame
deriving DecidableEq, Repr

/-- The FCL right after reset (R64): at step 1 of `init`. -/
def Fcl.reset : Fcl where
  geometry := none
  pc := some ⟨.init, 1⟩
  locals := {}
  stack := []
  results := []

/-- The state right after the first power-on, at configuration `c`: R64 for the block, 70 R303 for the device. The
values the spec leaves drawn are those of log 5 (registers) and log 4 (the array). -/
def State.resetAt (c : Config) : State where
  cfg := c
  desc := ⟨.idle, 0, 0, 0, 0, 0, 0⟩
  tx := List.replicate c.bufCap 0
  rx := List.replicate c.bufCap 0
  fg := .running
  bus := ⟨.ready, false, 0⟩
  cs := .low
  fcl := Fcl.reset
  dev :=
    { array := ⟨.drawn 0, []⟩, busy := false, power := .active, format := c.devInitialFormat, pow2Pending := false,
      frame := [], pagebuf := List.replicate c.devGeom.pageSize 0 }
  trace := []
  faults := []
  env := []
  calls := []
  draws := 1

/-- The machine right after reset, at the informative parameter values (log 2). -/
def State.reset : State := State.resetAt Config.informative

end Sys2Proof.Machine
end

