-- ==== Sys2Proof/Machine/Ops.lean ====
section
/-! DEFINITION. The named operations over memory, buffers, bus, device and FCL control state that every meaning is
built from; raising a fault (60 R268); entering and leaving the byte-complete handler (R269 to R273); the power cycle
(42 R245, 70 R300). -/

namespace Sys2Proof.Machine

/-- What the body of a step ends with when it does not end with a state. -/
inductive Trouble where
  /-- `raise Fault(Name)` (00 R17): a model fault to record. -/
  | raise (f : FaultName)
  /-- An access the spec says does not exist. -/
  | stop (r : Fault)
  /-- No meaning. -/
  | refuse (r : Refusal)
deriving DecidableEq, Repr

/-- The body of a step: it runs through, or ends in trouble with nothing written. -/
abbrev Act (α : Type) := Except Trouble α

/-- Go on only if `p` holds. -/
def require (p : Prop) [Decidable p] (e : Trouble) : Act Unit :=
  if p then .ok () else .error e

/-- `faults <- faults ∪ {name}` (R268). -/
def recordFault (f : FaultName) (s : State) : State :=
  if f ∈ s.faults then s else { s with faults := s.faults ++ [f] }

/-- How a step ends (R268): a step that raises a fault writes nothing but the record, so its next state is the state
`s` before it, with the name added; every other write is discarded. -/
def finish (s : State) (r : Act State) : Host.Outcome State Fault Refusal :=
  match r with
  | .ok t => .next t
  | .error (.raise f) => .next (recordFault f s)
  | .error (.stop r) => .fault r
  | .error (.refuse r) => .refused r

/-! ### The device array (R53, R73): `MemRead` and `MemWrite` of 00 R16 -/

/-- What a byte that nothing has written since the background was laid reads as: the drawn value (70 R303, 42 R245),
or the erased pattern (R246). -/
def Background.byteAt (b : Background) (a : Nat) : Byte :=
  match b with
  | .drawn n => Config.freeFillByte n a
  | .erased => 0xFF

/-- The value an unlisted offset is known to hold, where it is known (the canonical form's "what an unlisted address
reads as"; a drawn byte is not known, log 4). -/
def Background.known : Background → Option Byte
  | .drawn _ => none
  | .erased => some 0xFF

/-- The byte listed at offset `a`. -/
def lookupCell (a : Nat) : List Host.Cell → Option Byte
  | [] => none
  | (x, y) :: rest => if x = a then some y else lookupCell a rest

/-- List `b` at offset `a`, keeping the offsets rising. -/
def insertCell (a : Nat) (b : Byte) : List Host.Cell → List Host.Cell
  | [] => [(a, b)]
  | (x, y) :: rest =>
    if a < x then (a, b) :: (x, y) :: rest
    else if x = a then (a, b) :: rest
    else (x, y) :: insertCell a b rest

/-- Unlist offset `a`. -/
def removeCell (a : Nat) : List Host.Cell → List Host.Cell
  | [] => []
  | (x, y) :: rest => if x = a then removeCell a rest else (x, y) :: removeCell a rest

/-- The byte at offset `a`: `MemRead(a, 1)`. -/
def Memory.read (m : Memory) (a : Nat) : Byte :=
  (lookupCell a m.cells).getD (m.background.byteAt a)

/-- Set the byte at offset `a`, in canonical form. -/
def Memory.write (m : Memory) (a : Nat) (b : Byte) : Memory :=
  if m.background.known = some b then { m with cells := removeCell a m.cells }
  else { m with cells := insertCell a b m.cells }

/-- `MemWrite(a, len(l), l)`: the bytes of `l` at ascending offsets (R78). -/
def Memory.writeBytes (m : Memory) (a : Nat) : List Byte → Memory
  | [] => m
  | b :: rest => (m.write a b).writeBytes (a + 1) rest

/-- `MemRead(a, n)`. -/
def Memory.readBytes (m : Memory) (a n : Nat) : List Byte :=
  (List.range n).map fun j => m.read (a + j)

/-- Set `n` bytes from offset `a` to the erased pattern `0xFF` (R246). -/
def Memory.eraseRange (m : Memory) (a n : Nat) : Memory :=
  m.writeBytes a (List.replicate n 0xFF)

/-- Every byte erased (R233). -/
def Memory.allErased : Memory := ⟨.erased, []⟩

/-- The canonical form: offsets strictly rising and inside the array's `cap` bytes, no cell equal to what an unlisted
offset is known to read as. -/
abbrev Memory.wf (cap : Nat) (m : Memory) : Prop :=
  m.cells.Pairwise (fun x y => x.1 < y.1) ∧ ∀ c ∈ m.cells, c.1 < cap ∧ m.background.known ≠ some c.2

/-! ### Transmit and receive buffer (R38 to R40, R71, R72) -/

/-- `TX[i]`. -/
def readTx (i : Nat) (s : State) : Act Byte :=
  match s.tx[i]? with
  | some b => .ok b
  | none => .error (.stop .bufferIndex)

/-- `RX[i] <- b`. -/
def storeRx (i : Nat) (b : Byte) (s : State) : Act State :=
  if i < s.rx.length then .ok { s with rx := s.rx.set i b } else .error (.stop .bufferIndex)

/-- R40: an FCL step that touches the buffers while a transfer is in flight faults. -/
def requireOwnership (s : State) : Act Unit :=
  require (s.desc.mode = .idle) (.raise .bufferAccessDuringTransfer)

/-- `TX[i] <- frame[i]` for every i (R172, R173 step 1); the entries past the frame keep their values. -/
def fillTx (frame : List Byte) (s : State) : State :=
  { s with tx := frame ++ s.tx.drop frame.length }

/-! ### Bus, sleep and wake (40_transfer_engine.md R141, R142) -/

/-- `Shift(b)`: hand `b` to the shifter; `BusOverrun` if it still holds a byte. -/
def shift (b : Byte) (s : State) : Act State :=
  match s.bus.state with
  | .ready => .ok { s with bus := { s.bus with state := .shifting b } }
  | .shifting _ => .error (.raise .busOverrun)

/-- `Sleep()`: the low-power wait with interrupts enabled. -/
def sleep (s : State) : State := { s with fg := .asleep }

/-- `Wake()`: the handler's final act on completing a transfer. -/
def wake (s : State) : State := { s with fg := .running }

/-- R270: the byte-complete interrupt is delivered only while the foreground sleeps and the bus is ready. -/
abbrev handlerEnabled (s : State) : Prop :=
  s.bus.irqPending = true ∧ s.fg = .asleep ∧ s.bus.state = .ready

/-- Handler entry (R269, R272): it clears the pending interrupt and saves nothing; the foreground's control position
stays where it is. The return (R273) is the end of the same step. -/
def handlerEntry (s : State) : State := { s with bus := { s.bus with irqPending := false } }

/-- The end of a transfer: `desc.mode <- Idle; Wake()` (R149 to R151), the return that releases the foreground. -/
def finishTransfer (s : State) : State := wake { s with desc := { s.desc with mode := .idle } }

/-! ### Chip select, the falling edge (41 R171, 42 R220) -/

/-- `CS <- Low`: from `High`, the device starts a new frame. -/
def selectDevice (s : State) : State :=
  match s.cs with
  | .high => { s with cs := .low, dev := { s.dev with frame := [] } }
  | .low => s

/-! ### FCL control position (R51, R67, R170) -/

/-- Begin operation `i` with no caller, at step 1 and with no locals. -/
def startOp (i : Instr) (s : State) : State :=
  { s with fcl := { s.fcl with pc := some ⟨i, 1⟩, locals := {} } }

/-- The step at which operation `i` is to act, and the state it acts in: its own `fcl.pc` step where it is the
current operation; step 1, started, where none runs (70 R321). The FCL has a step only while `fg = Running` (R170). -/
def atStep (i : Instr) (s : State) : Act (Nat × State) :=
  if s.fg = .running then
    match s.fcl.pc with
    | none => .ok (1, startOp i s)
    | some pc => if pc.op = i then .ok (pc.step, s) else .error (.refuse .operationRunning)
  else .error (.refuse .notEnabled)

/-- `pc <- (op, n)` within the current operation. -/
def goto (n : Nat) (s : State) : State :=
  { s with fcl := { s.fcl with
      pc := s.fcl.pc.map fun pc => { pc with step := n }
      locals := { s.fcl.locals with ret := none } } }

/-- Call operation `i` from the current one: the caller waits on `fcl.stack` (R51). -/
def callOp (i : Instr) (s : State) : State :=
  match s.fcl.pc with
  | none => startOp i s
  | some pc => { s with fcl := { s.fcl with
      pc := some ⟨i, 1⟩, locals := {}, stack := ⟨pc, s.fcl.locals⟩ :: s.fcl.stack } }

/-- `return r` (R67): pop `fcl.stack` and hand `r` to the caller's step, or, at top level, leave it as `fcl.result`
(R52). -/
def returnOp (r : Result) (s : State) : State :=
  match s.fcl.stack with
  | [] => { s with fcl := { s.fcl with pc := none, locals := {}, results := s.fcl.results ++ [r] } }
  | a :: rest => { s with fcl := { s.fcl with
      pc := some a.pc, locals := { a.locals with ret := some r }, stack := rest } }

/-- Write the current operation's locals. -/
def setLocals (l : Locals) (s : State) : State := { s with fcl := { s.fcl with locals := l } }

/-- A step that calls operation `i` and goes on with the value it returns: before the call, call; after it, an error
is returned at once (60 R266, 41 R176), and `Ok(v)` continues the step with `k v`. -/
def callThen (i : Instr) (k : Value → State → Act State) (s : State) : Act State :=
  match s.fcl.locals.ret with
  | none => .ok (callOp i s)
  | some (.err e) => .ok (returnOp (.err e) s)
  | some (.ok v) => k v (setLocals { s.fcl.locals with ret := none } s)

/-- `emit(text)` (60 R281): one record on the trace. -/
def emit (r : TraceRecord) (s : State) : State := { s with trace := s.trace ++ [r] }

/-- `Delay(T)` (60 R277): a step that changes no state; the model has no time. -/
def delay (_duration : Nat) (s : State) : State := s

/-! ### Result and mode codes (the spec's own choices of numbers) -/

/-- Integers for a host interface that needs them (60 R265). -/
def resultCode : Result → Int
  | .ok _ => 0
  | .err .unrecognizedDevice => -1
  | .err .legacyPageFormat => -2
  | .err .timeout => -3

/-- Numbers for the modes, for a model that needs a code (30 R128). -/
def modeCode : Mode → Nat
  | .idle => 0
  | .sendingCommandBytes => 1
  | .sendingDataBytes => 2
  | .receivingDataBytes => 3

/-! ### Power cycle (70 R300, 42 R245) -/

/-- `draw()` of `n` bytes of a space. -/
def freeBytes (draw n : Nat) : List Byte := (List.range n).map (Config.freeFillByte draw)

/-- `draw()` of a chip-select level. -/
def freeLevel (draw : Nat) : ChipSelect := if (Config.freeByte draw).getLsbD 0 then .high else .low

/-- `draw()` of a page layout. -/
def freeFormat (draw : Nat) : PageFormat := if (Config.freeByte draw).getLsbD 0 then .pow2 else .legacy

/-- The device's part of a power cycle (R245); `n` is the first unused draw. -/
def powerCycleDevice (c : Config) (n : Nat) (d : Device) : Device :=
  { array := if d.busy || d.pow2Pending then ⟨.drawn n, []⟩ else d.array
    busy := false
    power := .active
    format :=
      if d.pow2Pending then (if d.busy then freeFormat n else .pow2) else d.format
    pow2Pending := false
    frame := []
    pagebuf := freeBytes (n + 1) c.devGeom.pageSize }

/-- The power cycle: the block takes the values of R64, the device those of R245. What R64 and R245 leave to `draw()`
is drawn. The moves and calls to come and the parameters are not the block's. -/
def powerCycle (s : State) : State :=
  let n := s.draws
  { cfg := s.cfg
    desc := ⟨.idle, Config.freeByte (n + 1), 0, 0, 0, 0, 0⟩
    tx := freeBytes (n + 2) s.cfg.bufCap
    rx := freeBytes (n + 3) s.cfg.bufCap
    fg := .running
    bus := ⟨.ready, false, Config.freeByte (n + 2)⟩
    cs := freeLevel (n + 3)
    fcl := Fcl.reset
    dev := powerCycleDevice s.cfg n s.dev
    trace := []
    faults := []
    env := s.env
    calls := s.calls
    draws := n + 4 }

end Sys2Proof.Machine
end

