-- ==== Sys2Proof/Machine/Flags.lean ====
section
/-! DEFINITION. The status byte, the device's only flag register (10 R60, 42 R224), and the FCL's reading of it
(41 R174). The block has no arithmetic condition codes (R61). -/

namespace Sys2Proof.Machine

/-- Bit `i` of `b` set to `v`, the other bits kept. -/
def setBit (b : Byte) (i : Fin 8) (v : Bool) : Byte :=
  if v then b ||| BitVec.twoPow 8 i.val else b &&& ~~~(BitVec.twoPow 8 i.val)

/-- The status byte (R224): the ready bit by `dev.busy`, the page-size bit by `dev.format`, every other bit that of
the free byte. -/
def statusByte (c : Config) (d : Device) (free : Byte) : Byte :=
  setBit
    (setBit free c.pagesizeBit (if d.format = .pow2 then c.pow2When else !c.pow2When))
    c.readyBit (if d.busy then !c.readyWhen else c.readyWhen)

/-- `is_ready(s)` (R174). -/
def isReady (c : Config) (status : Byte) : Bool := status.getLsbD c.readyBit.val == c.readyWhen

/-- `is_pow2(s)` (R174). -/
def isPow2 (c : Config) (status : Byte) : Bool := status.getLsbD c.pagesizeBit.val == c.pow2When

end Sys2Proof.Machine
end

