-- ==== Sys2Proof/Machine/Operands.lean ====
section
/-! DEFINITION. The operand forms: page indices as byte offsets (41 R181), the frames the FCL builds (30 R101 to
R119), the device's readings of a frame's offset, and the identification bytes (41 R178). -/

namespace Sys2Proof.Machine

/-- `page_offset(page_index)` (R181): the page's byte offset, exact; faults before the geometry is known and past the
last page. -/
def pageOffsetOf (pageIndex : Nat) (s : State) : Act Nat :=
  match s.fcl.geometry with
  | none => .error (.raise .geometryUnset)
  | some g => if pageIndex ≥ g.pageCount then .error (.raise .pageOutOfRange) else .ok (pageIndex <<< g.pageShift)

/-- R103: the FCL encodes an offset only when it fits the 24-bit field. -/
def encodableOffset (off : Nat) : Act Unit := require (off < 2 ^ 24) (.refuse .offsetNotEncodable)

/-- The offset bytes of an FCL frame: `addr3(off)` (R174). -/
def addr3Of (off : Nat) : List Byte := addr3 (BitVec.ofNat 24 off)

/-- The PAGE_ERASE frame of R183 step 2, R110. -/
def eraseFrame (c : Config) (off : Nat) : List Byte := c.opcPageErase :: addr3Of off

/-- The PAGE_PROGRAM_THROUGH_BUFFER frame of R185 step 2, R109, R105. -/
def programFrame (c : Config) (off : Nat) (buffer : List Byte) : List Byte :=
  c.opcProgThruBuf :: (addr3Of off ++ buffer)

/-- The head of the FAST_READ frame of R188 step 2, R108, R104. -/
def readFrame (c : Config) (off : Nat) : List Byte := c.opcFastRead :: (addr3Of off ++ [c.filler])

/-- `buffer[i*P .. (i+1)*P)` (R187 step 3). -/
def pageSlice (buffer : List Byte) (i pageSize : Nat) : List Byte := (buffer.drop (i * pageSize)).take pageSize

/-- The preset with capacity code `cap` (R178). -/
def presetOf (c : Config) (cap : Nat) : Option (Fin 7) := (List.finRange 7).find? fun k => c.capCode[k] == cap

/-- `decode_id(id)` (R178): the manufacturer byte, the family in byte 1's low `w` bits, the capacity code in its
remaining bits. -/
def decodeIdBytes (c : Config) (id : List Byte) : Option (Fin 7) :=
  match id with
  | m :: b :: _ =>
    if m ≠ c.mfrId then none
    else if b.toNat % 2 ^ c.familyWidth ≠ c.familyValue then none
    else presetOf c (b.toNat / 2 ^ c.familyWidth)
  | _ => none

/-- `P`, the device's page size (R231). -/
def devicePage (s : State) : Nat := s.cfg.devGeom.pageSize

/-- `cap`, the device array's extent (R230). -/
def deviceCap (s : State) : Nat := s.cfg.devGeom.capacity

end Sys2Proof.Machine
end

