-- ==== Sys2Proof/Machine/Frames.lean ====
section
/-! DEFINITION. The fourteen device command frames: the bytes the device drives while the frame is shifted (42 R221),
and the effect each frame has when it is committed at CS rising (42 R222, R226 to R241). The checks run in R222's
order: powered down, busy, legacy layout, address or read range, then the frame's own. -/

namespace Sys2Proof.Machine

/-! ### Commit checks -/

/-- R227: a powered-down device accepts RESUME only. -/
def requireActive (s : State) : Act Unit := require (s.dev.power = .active) (.raise .devicePoweredDownCommand)

/-- R226: a busy device accepts READ_STATUS only. -/
def requireReady (s : State) : Act Unit := require (s.dev.busy = false) (.raise .deviceBusyCommand)

/-- R244: array and buffer frames need the power-of-two layout. -/
def requirePow2 (s : State) : Act Unit := require (s.dev.format = .pow2) (.raise .legacyAddressing)

/-- R247: a page-addressed frame's offset lies in the array. -/
def requireInArray (off : Offset) (s : State) : Act Unit :=
  require (off.toNat < deviceCap s) (.raise .addressOutOfRange)

/-- R230: with `READ_WRAP = false` a read may not pass the array's end. -/
def requireReadRange (off : Offset) (nResp : Nat) (s : State) : Act Unit :=
  require (s.cfg.readWrap = true ∨ off.toNat + nResp ≤ deviceCap s) (.raise .readOutOfRange)

/-- R234 to R238: the five frames the FCL never issues have a meaning only with `ADMIT_BUFFER_CMDS`. -/
def requireAdmitted (s : State) : Act Unit := require (s.cfg.admitBufferCmds = true) (.raise .unmodelledCommand)

/-- R231, R232, R234, R237, R238: the offset is a multiple of the unit the frame acts on. -/
def requireAligned (unit : Nat) (off : Offset) : Act Unit := require (off.toNat % unit = 0) (.raise .unmodelledCommand)

/-- R231: a program's payload is one whole page. -/
def requireWholePage (payload : List Byte) (s : State) : Act Unit :=
  require (payload.length = devicePage s) (.raise .unmodelledCommand)

/-- The checks every frame but READ_STATUS and RESUME shares. -/
def requireIdleDevice (s : State) : Act Unit := do
  requireActive s
  requireReady s

/-- The checks the page-addressed frames share (R226, R227, R244, R247). -/
def requirePageFrame (off : Offset) (s : State) : Act Unit := do
  requireIdleDevice s
  requirePow2 s
  requireInArray off s

/-! ### Device writes -/

/-- `dev.array <- m`, and the device is busy with the internal operation. -/
def writeArrayBusy (m : Memory) (s : State) : State := { s with dev := { s.dev with array := m, busy := true } }

/-- The bytes a page program leaves (R231): the payload, or its bitwise and with what the page held. -/
def programmedBytes (c : Config) (old payload : List Byte) : List Byte :=
  match c.programSemantics with
  | .overwrite => payload
  | .andWithExisting => List.zipWith (· &&& ·) old payload

/-- `dev.pagebuf[(b0 + j) mod P] <- l[j]` for j = 0, 1, … in that order (R235). -/
def writePageBuf (pageSize b0 : Nat) (buf : List Byte) : List Byte → List Byte
  | [] => buf
  | b :: rest => writePageBuf pageSize (b0 + 1) (buf.set (b0 % pageSize) b) rest

/-! ### Output bytes (R221): `k` is the exchange's number in the frame, counted from 0 at the opcode -/

/-- IDENTIFY (R228): `DEV_ID[k-1]`, and free bytes past its end. -/
def identifyOutput (s : State) (k : Nat) (free : Byte) : Byte := (s.cfg.devId[k - 1]?).getD free

/-- READ_STATUS (R229): the status byte at that moment. -/
def readStatusOutput (s : State) (free : Byte) : Byte := statusByte s.cfg s.dev free

/-- FAST_READ (R230): from exchange 5 on, consecutive array bytes; past the end, wrapped or free. -/
def fastReadOutput (s : State) (off : Offset) (k : Nat) (free : Byte) : Byte :=
  let a := off.toNat + (k - 5)
  if a < deviceCap s then s.dev.array.read a
  else if s.cfg.readWrap then s.dev.array.read (a % deviceCap s)
  else free

/-- BUFFER_READ (R236): from exchange 5 on, page-buffer bytes with wrap-around, when admitted. -/
def bufferReadOutput (s : State) (off : Offset) (k : Nat) (free : Byte) : Byte :=
  if s.cfg.admitBufferCmds then
    (s.dev.pagebuf[(off.toNat % devicePage s + (k - 5)) % devicePage s]?).getD free
  else free

/-- `device_output(k)` (R221), where `k` bytes of the frame have been received: the frame's kind is its byte 0, known
from exchange 1 on; offsets are known from exchange 4 on. In every other case the byte is free. -/
def deviceOutput (s : State) (free : Byte) : Byte :=
  let k := s.dev.frame.length
  if s.dev.power = .poweredDown then free
  else match s.dev.frame with
    | [] => free
    | op :: rest =>
      if op = s.cfg.opcIdentify then identifyOutput s k free
      else if op = s.cfg.opcStatus then readStatusOutput s free
      else match rest with
        | a :: b :: c :: _ :: _ =>
          if op = s.cfg.opcFastRead then fastReadOutput s (offsetOf a b c) k free
          else if op = s.cfg.opcBufRead then bufferReadOutput s (offsetOf a b c) k free
          else free
        | _ => free

/-! ### Effect at commit, one definition per frame -/

/-- R228: no effect. -/
def identifyFrameEffect (s : State) : Act State := do
  requireIdleDevice s
  pure s

/-- R229: no effect; accepted while busy. -/
def readStatusFrameEffect (s : State) : Act State := do
  requireActive s
  pure s

/-- R230: no effect. -/
def fastReadFrameEffect (off : Offset) (nResp : Nat) (s : State) : Act State := do
  requireIdleDevice s
  requirePow2 s
  requireReadRange off nResp s
  pure s

/-- R231: the page holds the payload. -/
def pageProgramFrameEffect (off : Offset) (payload : List Byte) (s : State) : Act State := do
  requirePageFrame off s
  requireAligned (devicePage s) off
  requireWholePage payload s
  let old := s.dev.array.readBytes off.toNat (devicePage s)
  pure (writeArrayBusy (s.dev.array.writeBytes off.toNat (programmedBytes s.cfg old payload)) s)

/-- R232: the page is erased. -/
def pageEraseFrameEffect (off : Offset) (s : State) : Act State := do
  requirePageFrame off s
  requireAligned (devicePage s) off
  pure (writeArrayBusy (s.dev.array.eraseRange off.toNat (devicePage s)) s)

/-- R233: every byte of the array is erased; allowed in the legacy layout. -/
def chipEraseFrameEffect (s : State) : Act State := do
  requireIdleDevice s
  pure (writeArrayBusy Memory.allErased s)

/-- How many bytes of the block of 8 pages from `off` the array has (R234, 20 R73; log 11). -/
def blockBytes (off : Offset) (s : State) : Nat := min (8 * devicePage s) (deviceCap s - off.toNat)

/-- R234: a block of 8 pages is erased. -/
def blockEraseFrameEffect (off : Offset) (s : State) : Act State := do
  requirePageFrame off s
  requireAdmitted s
  requireAligned (8 * devicePage s) off
  pure (writeArrayBusy (s.dev.array.eraseRange off.toNat (blockBytes off s)) s)

/-- R235: the data bytes go to the page buffer, with wrap-around; the device does not become busy. -/
def bufferWriteFrameEffect (off : Offset) (payload : List Byte) (s : State) : Act State := do
  requireIdleDevice s
  requirePow2 s
  requireAdmitted s
  let buf := writePageBuf (devicePage s) (off.toNat % devicePage s) s.dev.pagebuf payload
  pure { s with dev := { s.dev with pagebuf := buf } }

/-- R236: no effect. -/
def bufferReadFrameEffect (s : State) : Act State := do
  requireIdleDevice s
  requirePow2 s
  requireAdmitted s
  pure s

/-- R237: the page takes the page buffer's bytes. -/
def bufferToMainFrameEffect (off : Offset) (s : State) : Act State := do
  requirePageFrame off s
  requireAdmitted s
  requireAligned (devicePage s) off
  pure (writeArrayBusy (s.dev.array.writeBytes off.toNat s.dev.pagebuf) s)

/-- R238: the page buffer takes the page's bytes. -/
def mainToBufferFrameEffect (off : Offset) (s : State) : Act State := do
  requirePageFrame off s
  requireAdmitted s
  requireAligned (devicePage s) off
  pure { s with dev := { s.dev with pagebuf := s.dev.array.readBytes off.toNat (devicePage s), busy := true } }

/-- R239: the device is powered down; a second power-down faults by R227. -/
def powerDownFrameEffect (s : State) : Act State := do
  requireIdleDevice s
  pure { s with dev := { s.dev with power := .poweredDown } }

/-- R240: the device is active; no effect when it already is. -/
def resumeFrameEffect (s : State) : Act State := do
  requireReady s
  pure { s with dev := { s.dev with power := .active } }

/-- R241: the reformat is pending until the next power cycle, and the device is busy. -/
def pageSizePow2FrameEffect (s : State) : Act State := do
  requireIdleDevice s
  pure { s with dev := { s.dev with pow2Pending := true, busy := true } }

/-! ### The meanings -/

/-- IDENTIFY (R106, R228). -/
def execIdentifyFrame (_nResp : Nat) (s : State) : Host.Outcome State Fault Refusal := finish s (identifyFrameEffect s)

/-- READ_STATUS (R107, R229). -/
def execReadStatusFrame (_nResp : Nat) (s : State) : Host.Outcome State Fault Refusal :=
  finish s (readStatusFrameEffect s)

/-- FAST_READ (R108, R230). -/
def execFastReadFrame (off : Offset) (nResp : Nat) (s : State) : Host.Outcome State Fault Refusal :=
  finish s (fastReadFrameEffect off nResp s)

/-- PAGE_PROGRAM_THROUGH_BUFFER (R109, R231). -/
def execPageProgramFrame (off : Offset) (payload : List Byte) (s : State) : Host.Outcome State Fault Refusal :=
  finish s (pageProgramFrameEffect off payload s)

/-- PAGE_ERASE (R110, R232). -/
def execPageEraseFrame (off : Offset) (s : State) : Host.Outcome State Fault Refusal :=
  finish s (pageEraseFrameEffect off s)

/-- CHIP_ERASE (R111, R233). -/
def execChipEraseFrame (s : State) : Host.Outcome State Fault Refusal := finish s (chipEraseFrameEffect s)

/-- BLOCK_ERASE (R112, R234). -/
def execBlockEraseFrame (off : Offset) (s : State) : Host.Outcome State Fault Refusal :=
  finish s (blockEraseFrameEffect off s)

/-- BUFFER_WRITE (R113, R235). -/
def execBufferWriteFrame (off : Offset) (payload : List Byte) (s : State) : Host.Outcome State Fault Refusal :=
  finish s (bufferWriteFrameEffect off payload s)

/-- BUFFER_READ (R114, R236). -/
def execBufferReadFrame (_off : Offset) (_nResp : Nat) (s : State) : Host.Outcome State Fault Refusal :=
  finish s (bufferReadFrameEffect s)

/-- BUFFER_TO_MAIN_WITH_ERASE (R115, R237). -/
def execBufferToMainFrame (off : Offset) (s : State) : Host.Outcome State Fault Refusal :=
  finish s (bufferToMainFrameEffect off s)

/-- MAIN_TO_BUFFER_TRANSFER (R116, R238). -/
def execMainToBufferFrame (off : Offset) (s : State) : Host.Outcome State Fault Refusal :=
  finish s (mainToBufferFrameEffect off s)

/-- POWER_DOWN (R117, R239). -/
def execPowerDownFrame (s : State) : Host.Outcome State Fault Refusal := finish s (powerDownFrameEffect s)

/-- RESUME (R118, R240). -/
def execResumeFrame (s : State) : Host.Outcome State Fault Refusal := finish s (resumeFrameEffect s)

/-- PAGE_SIZE_POW2 (R119, R241). -/
def execPageSizePow2Frame (s : State) : Host.Outcome State Fault Refusal := finish s (pageSizePow2FrameEffect s)

end Sys2Proof.Machine
end

