-- ==== Sys2Proof/Machine/DeviceAgent.lean ====
section
/-! DEFINITION. The device agent (42_device_frames.md section 1): DEVICE_EXCHANGE, COMMIT and DEVICE_COMPLETE, and the
chip select's rising edge, at which the device commits. -/

namespace Sys2Proof.Machine

/-- `DEVICE_EXCHANGE(b)` (R220): the byte the device returns, and the state after it has taken `b`. While it is not
selected it sees nothing and the byte received is free (R223). Each exchange uses up one free value (log 6). A missing
device returns free bytes (R221, log 10). -/
def exchange (b : Byte) (s : State) : Byte × State :=
  let free := Config.freeByte s.draws
  let s' := { s with draws := s.draws + 1 }
  match s.cs with
  | .high => (free, s')
  | .low =>
    (if s.cfg.devPresent then deviceOutput s free else free,
     { s' with dev := { s.dev with frame := s.dev.frame ++ [b] } })

/-- The effect of a decoded frame (R222's last line). -/
def frameEffect (i : Instr) (s : State) : Act State :=
  match i with
  | .identifyFrame _ => identifyFrameEffect s
  | .readStatusFrame _ => readStatusFrameEffect s
  | .fastReadFrame off nResp => fastReadFrameEffect off nResp s
  | .pageProgramFrame off payload => pageProgramFrameEffect off payload s
  | .pageEraseFrame off => pageEraseFrameEffect off s
  | .chipEraseFrame => chipEraseFrameEffect s
  | .blockEraseFrame off => blockEraseFrameEffect off s
  | .bufferWriteFrame off payload => bufferWriteFrameEffect off payload s
  | .bufferReadFrame _ _ => bufferReadFrameEffect s
  | .bufferToMainFrame off => bufferToMainFrameEffect off s
  | .mainToBufferFrame off => mainToBufferFrameEffect off s
  | .powerDownFrame => powerDownFrameEffect s
  | .resumeFrame => resumeFrameEffect s
  | .pageSizePow2Frame => pageSizePow2FrameEffect s
  | .busStep | .teWrite _ _ | .teRead _ _ | .byteComplete | .issueWrite _ _ | .issueRead _ _ | .waitReady | .identify
  | .decodeId _ | .pageOffset _ | .deviceOp _ _ | .erasePage _ | .eraseChip | .programPage _ _ | .eraseBlocks _ _
  | .programBlocks _ _ _ | .readBytes _ _ | .powerDown | .resume | .reprogramPageSize | .init | .deviceExchange _
  | .commit | .deviceComplete => .error (.refuse .notAFrame)

/-- `dev.frame <- []`. -/
def clearFrame (s : State) : State := { s with dev := { s.dev with frame := [] } }

/-- `COMMIT` (R222): take the frame, reject it by name (R242, R243) or apply its effect. An empty select has no
effect; a missing device commits nothing (log 10). -/
def commitFrame (s : State) : Act State :=
  if s.cfg.devPresent then
    match decode s.cfg s.dev.frame with
    | .ok i => frameEffect i (clearFrame s)
    | .error .emptyFrame => .ok (clearFrame s)
    | .error .unknownCommand => .error (.raise .unknownCommand)
    | .error .malformedFrame => .error (.raise .malformedFrame)
  else .ok (clearFrame s)

/-- `CS <- High` (41 R171): from `Low`, the device commits in the same step (42 R222). -/
def deselectDevice (s : State) : Act State :=
  match s.cs with
  | .low => do
    let t ← commitFrame s
    pure { t with cs := .high }
  | .high => .ok s

/-- DEVICE_COMPLETE's body (R225): enabled while the device is busy. -/
def deviceCompleteStep (s : State) : Act State := do
  require (s.dev.busy = true) (.refuse .notEnabled)
  pure { s with dev := { s.dev with busy := false } }

/-- DEVICE_EXCHANGE (R220) by itself: the byte the device returns is the byte received, `bus.rx` (R141). -/
def execDeviceExchange (b : Byte) (s : State) : Host.Outcome State Fault Refusal :=
  let (r, t) := exchange b s
  finish s (.ok { t with bus := { t.bus with rx := r } })

/-- COMMIT (R222). -/
def execCommit (s : State) : Host.Outcome State Fault Refusal := finish s (commitFrame s)

/-- DEVICE_COMPLETE (R225). -/
def execDeviceComplete (s : State) : Host.Outcome State Fault Refusal := finish s (deviceCompleteStep s)

end Sys2Proof.Machine
end

