-- ==== Sys2Proof/Machine/Engine.lean ====
section
/-! DEFINITION. The Transfer Engine (40_transfer_engine.md): the bus shifter's step, the two blocking calls and the
byte-complete handler. -/

namespace Sys2Proof.Machine

/-- BUS_STEP's body (R141): one full-duplex exchange, then the byte-complete interrupt is pending. -/
def busExchangeStep (s : State) : Act State :=
  match s.bus.state with
  | .ready => .error (.refuse .notEnabled)
  | .shifting b =>
    let (r, t) := exchange b s
    .ok { t with bus := ⟨.ready, true, r⟩ }

/-- The populating part of a TE call (R143, R144; R65): the descriptor is written whole, `TX[0]` goes on the wire and
the foreground sleeps. -/
def startTransfer (cmdRemaining txRemaining rxRemaining : Nat) (s : State) : Act State := do
  let b ← readTx 0 s
  let t ← shift b { s with desc :=
    { mode := .sendingCommandBytes, commandByte := b, txCursor := 1, txRemaining := txRemaining, rxCursor := 0,
      rxRemaining := rxRemaining, cmdRemaining := cmdRemaining } }
  pure (sleep t)

/-- TE_WRITE's body (R143). -/
def teWriteCall (nCmd nData : Nat) (s : State) : Act State := do
  require (s.desc.mode = .idle) (.raise .transferInFlight)
  require (1 ≤ nCmd) (.raise .emptyFrame)
  require (nCmd + nData ≤ s.cfg.bufCap) (.raise .bufferOverflow)
  startTransfer (nCmd - 1) (nCmd - 1 + nData) 0 s

/-- TE_READ's body (R144). -/
def teReadCall (nCmd nResp : Nat) (s : State) : Act State := do
  require (s.desc.mode = .idle) (.raise .transferInFlight)
  require (1 ≤ nCmd) (.raise .emptyFrame)
  require (nCmd ≤ s.cfg.bufCap ∧ nResp ≤ s.cfg.bufCap) (.raise .bufferOverflow)
  startTransfer (nCmd - 1) (nCmd - 1) nResp s

/-- `Shift(TX[desc.tx_cursor])` and the descriptor `d` that records it (R146, R148, R150). -/
def shiftTx (d : Descriptor) (s : State) : Act State := do
  let b ← readTx s.desc.txCursor s
  shift b { s with desc := d }

/-- R146: command or address bytes remain. -/
def shiftCommandByte (s : State) : Act State :=
  shiftTx { s.desc with
    txCursor := s.desc.txCursor + 1
    txRemaining := s.desc.txRemaining - 1
    cmdRemaining := s.desc.cmdRemaining - 1 } s

/-- R148, R150: a payload byte. -/
def shiftPayloadByte (s : State) : Act State :=
  shiftTx { s.desc with
    mode := .sendingDataBytes
    txCursor := s.desc.txCursor + 1
    txRemaining := s.desc.txRemaining - 1 } s

/-- R147: the command is exhausted and a response is expected. -/
def beginResponse (s : State) : Act State :=
  shift s.cfg.filler { s with desc := { s.desc with mode := .receivingDataBytes } }

/-- R151: store the received byte; ask for the next one or end the transfer. -/
def storeResponseByte (s : State) : Act State := do
  let t ← storeRx s.desc.rxCursor s.bus.rx s
  let t := { t with desc := { t.desc with
    rxCursor := t.desc.rxCursor + 1
    rxRemaining := t.desc.rxRemaining - 1 } }
  if t.desc.rxRemaining > 0 then shift t.cfg.filler t else pure (finishTransfer t)

/-- The handler's dispatch on `desc.mode` (R145), one case per rule R146 to R152. -/
def handleByteComplete (s : State) : Act State :=
  match s.desc.mode with
  | .idle => .error (.raise .spuriousByteComplete)
  | .sendingCommandBytes =>
    if s.desc.cmdRemaining > 0 then shiftCommandByte s
    else if s.desc.rxRemaining > 0 then beginResponse s
    else if s.desc.txRemaining > 0 then shiftPayloadByte s
    else .ok (finishTransfer s)
  | .sendingDataBytes =>
    if s.desc.txRemaining > 0 then shiftPayloadByte s else .ok (finishTransfer s)
  | .receivingDataBytes => storeResponseByte s

/-- BYTE_COMPLETE's body (R145, R270). -/
def byteCompleteStep (s : State) : Act State := do
  require (handlerEnabled s) (.refuse .notEnabled)
  handleByteComplete (handlerEntry s)

/-- BUS_STEP (R141). -/
def execBusStep (s : State) : Host.Outcome State Fault Refusal := finish s (busExchangeStep s)

/-- TE_WRITE (R143). -/
def execTeWrite (nCmd nData : Nat) (s : State) : Host.Outcome State Fault Refusal := finish s (teWriteCall nCmd nData s)

/-- TE_READ (R144). -/
def execTeRead (nCmd nResp : Nat) (s : State) : Host.Outcome State Fault Refusal := finish s (teReadCall nCmd nResp s)

/-- BYTE_COMPLETE (R145 to R152). -/
def execByteComplete (s : State) : Host.Outcome State Fault Refusal := finish s (byteCompleteStep s)

end Sys2Proof.Machine
end

