-- ==== Sys2Proof/Machine/Commands.lean ====
section
/-! DEFINITION. The operations of the Flash Command Layer (41_command_layer.md): one numbered step of an operation's
pseudocode per execution (R170). A step that calls another operation calls it, and goes on when it has returned
(`callThen`). -/

namespace Sys2Proof.Machine

/-- A step number the operation's pseudocode does not have. -/
def noStep : Act State := .error (.refuse .noSuchStep)

/-- Step 1 of R172 and R173: the capacity check, the ownership check (R40) and the fill of TX. -/
def fillStep (frame : List Byte) (s : State) : Act State := do
  require (frame.length ≤ s.cfg.bufCap) (.raise .bufferOverflow)
  requireOwnership s
  pure (goto 2 (fillTx frame s))

/-- Step 2 of R172 and R173: `CS <- Low`. -/
def selectStep (s : State) : State := goto 3 (selectDevice s)

/-- Step 4 of R172 and R173: `CS <- High`; the device commits the frame. -/
def deselectStep (s : State) : Act State := do
  let t ← deselectDevice s
  pure (goto 5 t)

/-- `issue_write(frame, n_cmd)` (R172). -/
def issueWriteStep (frame : List Byte) (nCmd n : Nat) (s : State) : Act State :=
  match n with
  | 1 => fillStep frame s
  | 2 => .ok (selectStep s)
  | 3 => do
    require (nCmd ≤ frame.length) (.refuse .payloadCountNegative)
    let t ← teWriteCall nCmd (frame.length - nCmd) s
    pure (goto 4 t)
  | 4 => deselectStep s
  | 5 => .ok (returnOp (.ok .unit) s)
  | _ => noStep

/-- `issue_read(cmd, n_resp)` (R173). -/
def issueReadStep (cmd : List Byte) (nResp n : Nat) (s : State) : Act State :=
  match n with
  | 1 => fillStep cmd s
  | 2 => .ok (selectStep s)
  | 3 => do
    let t ← teReadCall cmd.length nResp s
    pure (goto 4 t)
  | 4 => deselectStep s
  | 5 => do
    requireOwnership s
    pure (returnOp (.ok (.bytes (s.rx.take nResp))) s)
  | _ => noStep

/-- Step 2 of R175 after the status read: `s <- …[0]; polls <- polls + 1`. -/
def countPoll (v : Value) (s : State) : Act State :=
  match v with
  | .bytes (b :: _) => .ok (goto 3 (setLocals { s.fcl.locals with status := b, polls := s.fcl.locals.polls + 1 } s))
  | _ => noStep

/-- `WAIT_READY_BOUND = n and polls >= n` (R175 step 4, R176). -/
def boundReached (s : State) : Bool :=
  match s.cfg.waitReadyBound with
  | none => false
  | some n => decide (n ≤ s.fcl.locals.polls)

/-- `wait_ready()` (R175, R176). -/
def waitReadyStep (n : Nat) (s : State) : Act State :=
  match n with
  | 1 => .ok (goto 2 (setLocals { s.fcl.locals with polls := 0 } s))
  | 2 => callThen (.issueRead [s.cfg.opcStatus] 1) countPoll s
  | 3 =>
    if isReady s.cfg s.fcl.locals.status then .ok (returnOp (.ok (.byte s.fcl.locals.status)) s)
    else .ok (goto 4 s)
  | 4 => if boundReached s then .ok (returnOp (.err .timeout) s) else .ok (goto 5 s)
  | 5 => .ok (goto 2 (delay s.cfg.tPoll s))
  | _ => noStep

/-- Step 1 of R177 after the identification read. -/
def keepId (v : Value) (s : State) : Act State :=
  match v with
  | .bytes id => .ok (goto 2 (setLocals { s.fcl.locals with id := id } s))
  | _ => noStep

/-- `identify()` (R177). -/
def identifyStep (n : Nat) (s : State) : Act State :=
  match n with
  | 1 => callThen (.issueRead [s.cfg.opcIdentify] s.cfg.idReadLen) keepId s
  | 2 => .ok (goto 3 (emit (.identification s.fcl.locals.id) s))
  | 3 =>
    match decodeIdBytes s.cfg s.fcl.locals.id with
    | none => .ok (returnOp (.err .unrecognizedDevice) s)
    | some k => .ok (goto 4 (setLocals { s.fcl.locals with preset := some k } s))
  | 4 =>
    match s.fcl.locals.preset with
    | none => noStep
    | some k =>
      let g := s.cfg.geom[k]
      .ok (returnOp (.ok (.geometry g)) { s with fcl := { s.fcl with geometry := some g } })
  | _ => noStep

/-- `decode_id(id)` (R178): a computation within one step. -/
def decodeIdStep (id : List Byte) (n : Nat) (s : State) : Act State :=
  match n with
  | 1 => .ok (returnOp (.ok (.preset (decodeIdBytes s.cfg id))) s)
  | _ => noStep

/-- `page_offset(page_index)` (R181): a computation within one step. -/
def pageOffsetStep (pageIndex n : Nat) (s : State) : Act State :=
  match n with
  | 1 => do
    let off ← pageOffsetOf pageIndex s
    pure (returnOp (.ok (.offset off)) s)
  | _ => noStep

/-- A step that calls `i` when `p` holds and goes on to step `next`. -/
def callIf (p : Prop) [Decidable p] (i : Instr) (next : Nat) (s : State) : Act State :=
  if p then callThen i (fun _ t => .ok (goto next t)) s else .ok (goto next s)

/-- The power-down call of step 5 of R182. -/
def bracketPowerDown (s : State) : State := callOp .powerDown (setLocals { s.fcl.locals with phase := 2 } s)

/-- Step 5 of R182: under SleepBetweenOperations, a wait where the operation left the device busy under
PreOperation, then `power_down()`. The two calls stand in one step; `phase` says which of them has been made. -/
def bracketClose (makesBusy : Bool) (s : State) : Act State :=
  if s.cfg.powerPolicy = .sleepBetweenOperations then
    match s.fcl.locals.ret with
    | none =>
      if s.cfg.busyPolicy = .preOperation ∧ makesBusy = true then
        .ok (callOp .waitReady (setLocals { s.fcl.locals with phase := 1 } s))
      else .ok (bracketPowerDown s)
    | some (.err e) => .ok (returnOp (.err e) s)
    | some (.ok _) =>
      if s.fcl.locals.phase = 1 then .ok (bracketPowerDown (setLocals { s.fcl.locals with ret := none } s))
      else .ok (goto 6 s)
  else .ok (goto 6 s)

/-- `DEVICE_OP(body, makes_busy)` (R182). -/
def deviceOpStep (body : TransferBody) (makesBusy : Bool) (n : Nat) (s : State) : Act State :=
  match n with
  | 1 => callIf (s.cfg.powerPolicy = .sleepBetweenOperations) .resume 2 s
  | 2 => callIf (s.cfg.busyPolicy = .preOperation) .waitReady 3 s
  | 3 => callThen body.instr (fun v t => .ok (goto 4 (setLocals { t.fcl.locals with value := v } t))) s
  | 4 => callIf (s.cfg.busyPolicy = .postOperation ∧ makesBusy = true) .waitReady 5 s
  | 5 => bracketClose makesBusy s
  | 6 => .ok (returnOp (.ok s.fcl.locals.value) s)
  | _ => noStep

/-- `off` and the emit of R183 and R185 step 1; R103 for the offset's width. -/
def keepOffset (pageIndex off : Nat) (s : State) : Act State := do
  encodableOffset off
  pure (goto 2 (emit (.pageOffset pageIndex off) (setLocals { s.fcl.locals with off := off } s)))

/-- `erase_page(page_index)` (R183). -/
def erasePageStep (pageIndex n : Nat) (s : State) : Act State :=
  match n with
  | 1 => do
    let off ← pageOffsetOf pageIndex s
    keepOffset pageIndex off s
  | 2 =>
    callThen (.deviceOp (.write (eraseFrame s.cfg s.fcl.locals.off) 4) true) (fun _ t => .ok (goto 3 t)) s
  | 3 => .ok (returnOp (.ok .unit) s)
  | _ => noStep

/-- `erase_chip()` (R184). -/
def eraseChipStep (n : Nat) (s : State) : Act State :=
  match n with
  | 1 => .ok (goto 2 (emit .chipErase s))
  | 2 => callThen (.deviceOp (.write s.cfg.seqChipErase.bytes 4) true) (fun _ t => .ok (goto 3 t)) s
  | 3 => .ok (returnOp (.ok .unit) s)
  | _ => noStep

/-- `len(buffer) != 2^s` (R185 step 1). -/
def requirePageBuffer (buffer : List Byte) (s : State) : Act Unit :=
  match s.fcl.geometry with
  | none => .error (.raise .geometryUnset)
  | some g => require (buffer.length = g.pageSize) (.raise .badBufferLength)

/-- `program_page(page_index, buffer)` (R185). -/
def programPageStep (pageIndex : Nat) (buffer : List Byte) (n : Nat) (s : State) : Act State :=
  match n with
  | 1 => do
    let off ← pageOffsetOf pageIndex s
    requirePageBuffer buffer s
    keepOffset pageIndex off s
  | 2 =>
    callThen (.deviceOp (.write (programFrame s.cfg s.fcl.locals.off buffer) 4) true) (fun _ t => .ok (goto 3 t)) s
  | 3 => .ok (returnOp (.ok .unit) s)
  | _ => noStep

/-- `i <- i + 1; pc <- (op, 2)` (R186, R187 step 3). -/
def nextUnit (_v : Value) (s : State) : Act State :=
  .ok (goto 2 (setLocals { s.fcl.locals with index := s.fcl.locals.index + 1 } s))

/-- Step 2 of R186 and R187: `if i = count: return Ok(count)`. -/
def loopTest (count : Nat) (s : State) : State :=
  if s.fcl.locals.index = count then returnOp (.ok (.count count)) s else goto 3 s

/-- `erase_blocks(start_block, count)` (R186). -/
def eraseBlocksStep (startBlock count n : Nat) (s : State) : Act State :=
  match n with
  | 1 =>
    match s.fcl.geometry with
    | none => .error (.raise .geometryUnset)
    | some _ => .ok (goto 2 (setLocals { s.fcl.locals with index := 0 } s))
  | 2 => .ok (loopTest count s)
  | 3 => callThen (.erasePage (startBlock + s.fcl.locals.index)) nextUnit s
  | _ => noStep

/-- `program_blocks(start_block, count, buffer)` (R187). -/
def programBlocksStep (startBlock count : Nat) (buffer : List Byte) (n : Nat) (s : State) : Act State :=
  match n with
  | 1 =>
    match s.fcl.geometry with
    | none => .error (.raise .geometryUnset)
    | some g =>
      if buffer.length = count * g.pageSize then
        .ok (goto 2 (setLocals { s.fcl.locals with index := 0, pageSize := g.pageSize } s))
      else .error (.raise .badBufferLength)
  | 2 => .ok (loopTest count s)
  | 3 =>
    callThen
      (.programPage (startBlock + s.fcl.locals.index) (pageSlice buffer s.fcl.locals.index s.fcl.locals.pageSize))
      nextUnit s
  | _ => noStep

/-- `read_bytes(offset, length)` (R188). -/
def readBytesStep (offset length n : Nat) (s : State) : Act State :=
  match n with
  | 1 => do
    require (offset < 2 ^ 24) (.raise .readOutOfRange)
    pure (goto 2 (emit (.readRange offset length) s))
  | 2 =>
    callThen (.deviceOp (.read (readFrame s.cfg offset) length) false)
      (fun v t => .ok (goto 3 (setLocals { t.fcl.locals with value := v } t))) s
  | 3 => .ok (returnOp (.ok s.fcl.locals.value) s)
  | _ => noStep

/-- `power_down()` (R189). -/
def powerDownStep (n : Nat) (s : State) : Act State :=
  match n with
  | 1 => callThen (.issueWrite [s.cfg.opcPowerDown] 1) (fun _ t => .ok (goto 2 t)) s
  | 2 => .ok (returnOp (.ok .unit) s)
  | _ => noStep

/-- `resume()` (R190). -/
def resumeStep (n : Nat) (s : State) : Act State :=
  match n with
  | 1 => callThen (.issueWrite [s.cfg.opcResume] 1) (fun _ t => .ok (goto 2 t)) s
  | 2 => .ok (goto 3 (delay s.cfg.tResume s))
  | 3 => .ok (returnOp (.ok .unit) s)
  | _ => noStep

/-- `reprogram_page_size()` (R191). -/
def reprogramPageSizeStep (n : Nat) (s : State) : Act State :=
  match n with
  | 1 => callThen (.issueWrite s.cfg.seqPow2.bytes 4) (fun _ t => .ok (goto 2 t)) s
  | 2 => .ok (returnOp (.ok .unit) s)
  | _ => noStep

/-- Step 3 of R192: `identify()`, and the early return of an unrecognized device with its emit. -/
def initIdentify (s : State) : Act State :=
  match s.fcl.locals.ret with
  | some (.err .unrecognizedDevice) => .ok (returnOp (.err .unrecognizedDevice) (emit .unrecognized s))
  | _ => callThen .identify (fun _ t => .ok (goto 4 t)) s

/-- Step 4 of R192 after `wait_ready`: keep the status byte. -/
def keepStatus (v : Value) (s : State) : Act State :=
  match v with
  | .byte b => .ok (goto 5 (setLocals { s.fcl.locals with status := b } s))
  | _ => noStep

/-- Step 5 of R192: a device in the legacy layout is sent the reformat sequence, and `init` fails. -/
def initFormat (s : State) : Act State :=
  if isPow2 s.cfg s.fcl.locals.status then .ok (goto 6 s)
  else
    callThen .reprogramPageSize (fun _ t => .ok (returnOp (.err .legacyPageFormat) (emit .legacyPageFormat t))) s

/-- `init()` (R192). -/
def initStep (n : Nat) (s : State) : Act State :=
  match n with
  | 1 => do
    let t ← deselectDevice s
    pure (goto 2 t)
  | 2 => callThen .resume (fun _ t => .ok (goto 3 t)) s
  | 3 => initIdentify s
  | 4 => callThen .waitReady keepStatus s
  | 5 => initFormat s
  | 6 => callIf (s.cfg.powerPolicy = .sleepBetweenOperations) .powerDown 7 s
  | 7 => .ok (returnOp (.ok .unit) (emit .initOk s))
  | _ => noStep

/-- One step of FCL operation `i`, whose step bodies are `body` (R170, R268). -/
def runOp (i : Instr) (body : Nat → State → Act State) (s : State) : Host.Outcome State Fault Refusal :=
  finish s (do
    let (n, t) ← atStep i s
    body n t)

/-- issue_write (R172). -/
def execIssueWrite (frame : List Byte) (nCmd : Nat) (s : State) : Host.Outcome State Fault Refusal :=
  runOp (.issueWrite frame nCmd) (issueWriteStep frame nCmd) s

/-- issue_read (R173). -/
def execIssueRead (cmd : List Byte) (nResp : Nat) (s : State) : Host.Outcome State Fault Refusal :=
  runOp (.issueRead cmd nResp) (issueReadStep cmd nResp) s

/-- wait_ready (R175, R176). -/
def execWaitReady (s : State) : Host.Outcome State Fault Refusal := runOp .waitReady waitReadyStep s

/-- identify (R177). -/
def execIdentify (s : State) : Host.Outcome State Fault Refusal := runOp .identify identifyStep s

/-- decode_id (R178). -/
def execDecodeId (id : List Byte) (s : State) : Host.Outcome State Fault Refusal :=
  runOp (.decodeId id) (decodeIdStep id) s

/-- page_offset (R181). -/
def execPageOffset (pageIndex : Nat) (s : State) : Host.Outcome State Fault Refusal :=
  runOp (.pageOffset pageIndex) (pageOffsetStep pageIndex) s

/-- DEVICE_OP (R182). -/
def execDeviceOp (body : TransferBody) (makesBusy : Bool) (s : State) : Host.Outcome State Fault Refusal :=
  runOp (.deviceOp body makesBusy) (deviceOpStep body makesBusy) s

/-- erase_page (R183). -/
def execErasePage (pageIndex : Nat) (s : State) : Host.Outcome State Fault Refusal :=
  runOp (.erasePage pageIndex) (erasePageStep pageIndex) s

/-- erase_chip (R184). -/
def execEraseChip (s : State) : Host.Outcome State Fault Refusal := runOp .eraseChip eraseChipStep s

/-- program_page (R185). -/
def execProgramPage (pageIndex : Nat) (buffer : List Byte) (s : State) : Host.Outcome State Fault Refusal :=
  runOp (.programPage pageIndex buffer) (programPageStep pageIndex buffer) s

/-- erase_blocks (R186). -/
def execEraseBlocks (startBlock count : Nat) (s : State) : Host.Outcome State Fault Refusal :=
  runOp (.eraseBlocks startBlock count) (eraseBlocksStep startBlock count) s

/-- program_blocks (R187). -/
def execProgramBlocks (startBlock count : Nat) (buffer : List Byte) (s : State) : Host.Outcome State Fault Refusal :=
  runOp (.programBlocks startBlock count buffer) (programBlocksStep startBlock count buffer) s

/-- read_bytes (R188). -/
def execReadBytes (offset length : Nat) (s : State) : Host.Outcome State Fault Refusal :=
  runOp (.readBytes offset length) (readBytesStep offset length) s

/-- power_down (R189). -/
def execPowerDown (s : State) : Host.Outcome State Fault Refusal := runOp .powerDown powerDownStep s

/-- resume (R190). -/
def execResume (s : State) : Host.Outcome State Fault Refusal := runOp .resume resumeStep s

/-- reprogram_page_size (R191). -/
def execReprogramPageSize (s : State) : Host.Outcome State Fault Refusal :=
  runOp .reprogramPageSize reprogramPageSizeStep s

/-- init (R192). -/
def execInit (s : State) : Host.Outcome State Fault Refusal := runOp .init initStep s

end Sys2Proof.Machine
end

