-- ==== Sys2Proof/Machine/Dispatch.lean ====
section
/-! DEFINITION. `exec`: one arm per constructor of Instr, each a direct call of that instruction's meaning. -/

namespace Sys2Proof.Machine

def exec (i : Instr) (s : State) : Host.Outcome State Fault Refusal :=
  match i with
  | .identifyFrame nResp => Sys2Proof.Machine.execIdentifyFrame nResp s
  | .readStatusFrame nResp => Sys2Proof.Machine.execReadStatusFrame nResp s
  | .fastReadFrame off nResp => Sys2Proof.Machine.execFastReadFrame off nResp s
  | .pageProgramFrame off payload => Sys2Proof.Machine.execPageProgramFrame off payload s
  | .pageEraseFrame off => Sys2Proof.Machine.execPageEraseFrame off s
  | .chipEraseFrame => Sys2Proof.Machine.execChipEraseFrame s
  | .blockEraseFrame off => Sys2Proof.Machine.execBlockEraseFrame off s
  | .bufferWriteFrame off payload => Sys2Proof.Machine.execBufferWriteFrame off payload s
  | .bufferReadFrame off nResp => Sys2Proof.Machine.execBufferReadFrame off nResp s
  | .bufferToMainFrame off => Sys2Proof.Machine.execBufferToMainFrame off s
  | .mainToBufferFrame off => Sys2Proof.Machine.execMainToBufferFrame off s
  | .powerDownFrame => Sys2Proof.Machine.execPowerDownFrame s
  | .resumeFrame => Sys2Proof.Machine.execResumeFrame s
  | .pageSizePow2Frame => Sys2Proof.Machine.execPageSizePow2Frame s
  | .busStep => Sys2Proof.Machine.execBusStep s
  | .teWrite nCmd nData => Sys2Proof.Machine.execTeWrite nCmd nData s
  | .teRead nCmd nResp => Sys2Proof.Machine.execTeRead nCmd nResp s
  | .byteComplete => Sys2Proof.Machine.execByteComplete s
  | .issueWrite frame nCmd => Sys2Proof.Machine.execIssueWrite frame nCmd s
  | .issueRead cmd nResp => Sys2Proof.Machine.execIssueRead cmd nResp s
  | .waitReady => Sys2Proof.Machine.execWaitReady s
  | .identify => Sys2Proof.Machine.execIdentify s
  | .decodeId id => Sys2Proof.Machine.execDecodeId id s
  | .pageOffset pageIndex => Sys2Proof.Machine.execPageOffset pageIndex s
  | .deviceOp body makesBusy => Sys2Proof.Machine.execDeviceOp body makesBusy s
  | .erasePage pageIndex => Sys2Proof.Machine.execErasePage pageIndex s
  | .eraseChip => Sys2Proof.Machine.execEraseChip s
  | .programPage pageIndex buffer => Sys2Proof.Machine.execProgramPage pageIndex buffer s
  | .eraseBlocks startBlock count => Sys2Proof.Machine.execEraseBlocks startBlock count s
  | .programBlocks startBlock count buffer => Sys2Proof.Machine.execProgramBlocks startBlock count buffer s
  | .readBytes offset length => Sys2Proof.Machine.execReadBytes offset length s
  | .powerDown => Sys2Proof.Machine.execPowerDown s
  | .resume => Sys2Proof.Machine.execResume s
  | .reprogramPageSize => Sys2Proof.Machine.execReprogramPageSize s
  | .init => Sys2Proof.Machine.execInit s
  | .deviceExchange b => Sys2Proof.Machine.execDeviceExchange b s
  | .commit => Sys2Proof.Machine.execCommit s
  | .deviceComplete => Sys2Proof.Machine.execDeviceComplete s

end Sys2Proof.Machine
end

