-- ==== Sys2Proof/Machine/Schedule.lean ====
section
/-! DEFINITION. Which instruction an agent's next step runs, what the host may do (70 R321), and the order the model
takes when the moves to come are not given (log 3). -/

namespace Sys2Proof.Machine

/-- The instruction agent `a` runs next, where the agent has a step (R141, R170, R225, R270). The FCL's is the
operation at `fcl.pc` (R67). -/
def fetch (a : Agent) (s : State) : Option Instr :=
  match a with
  | .bus =>
    match s.bus.state with
    | .shifting _ => some .busStep
    | .ready => none
  | .handler => if handlerEnabled s then some .byteComplete else none
  | .device => if s.dev.busy then some .deviceComplete else none
  | .fcl =>
    match s.fg, s.fcl.pc with
    | .running, some pc => if pc.op.isFclOp then some pc.op else none
    | _, _ => none

/-- The agent that moves when `env` is empty: the shifter, the handler, the device (when every busy period ends), the
foreground, in this order. DESIGN CHOICE: log 3. -/
def defaultAgent (s : State) : Option Agent :=
  if (fetch .bus s).isSome then some .bus
  else if (fetch .handler s).isSome then some .handler
  else if s.cfg.devEventuallyReady && (fetch .device s).isSome then some .device
  else if (fetch .fcl s).isSome then some .fcl
  else none

/-- No operation runs (70 R321): the foreground is awake and at no operation. -/
def noOperation (s : State) : Bool := s.fg == .running && s.fcl.pc == none

/-- The last top-level operation returned an error. -/
def lastFailed (s : State) : Bool :=
  match s.fcl.result with
  | some (.err _) => true
  | some (.ok _) => false
  | none => false

/-- The call the host may start now: the next of its list, "only when no operation is running" (R321), "each after the
previous has returned", and none after an error (70 R320, R305 item 5). A call that cannot start yet stays listed. -/
def nextCall (s : State) : Option Instr :=
  match s.calls with
  | [] => none
  | op :: _ => if noOperation s && !lastFailed s && op.isTopLevel then some op else none

/-- The next move: the first of `env`; where there is none, the default agent's, then the host's next call; `none` when
nothing can move. -/
def nextMove (s : State) : Option Move :=
  match s.env with
  | m :: _ => some m
  | [] =>
    match defaultAgent s with
    | some a => some (.agent a)
    | none => (nextCall s).map fun _ => .startCall

/-- The state with its next move used up. -/
def consumeMove (s : State) : State := { s with env := s.env.tail }

/-- The host starts its next call (R321); where it may start none, this changes nothing. -/
def hostStart (s : State) : State :=
  match nextCall s with
  | some op => startOp op { s with calls := s.calls.tail }
  | none => s

/-- The host power-cycles, only while no operation runs (R321), and begins a launch with the list `calls` (R320). -/
def hostPowerCycle (calls : List Instr) (s : State) : State :=
  if noOperation s then { powerCycle s with calls := calls } else s

/-- A state whose very next step raises CS on the frame `bytes`: the FCL moves next and stands at `init` step 1
(`CS <- High`), the device is selected and has received `bytes`. -/
def placeFrame (bytes : List Byte) (s : State) : State :=
  { s with
    fg := .running
    cs := .low
    fcl := { s.fcl with pc := some ⟨.init, 1⟩ }
    dev := { s.dev with frame := bytes }
    env := .agent .fcl :: s.env }

end Sys2Proof.Machine
end

