-- ==== Sys2Proof/Machine/Step.lean ====
section
/-! DEFINITION. One step of the machine: the next move, carried out. -/

namespace Sys2Proof.Machine

/-- Agent `a` takes a step: it runs the instruction it is at, or, where it has none, the step changes nothing. -/
def agentStep (a : Agent) (s : State) : Host.Outcome State Fault Refusal :=
  match fetch a s with
  | some i => exec i s
  | none => .next s

/-- One move (60 R271: any agent or the host may be next; 70 R321: what the host can do). -/
def takeMove (m : Move) (s : State) : Host.Outcome State Fault Refusal :=
  match m with
  | .agent a => agentStep a s
  | .startCall => .next (hostStart s)
  | .powerCycle calls => .next (hostPowerCycle calls s)

/-- One step. A configuration that breaks R120 is refused; once a fault is recorded no agent has a step (60 R268);
where nothing can move, the machine waits for the host. -/
def step (s : State) : Host.Outcome State Fault Refusal :=
  if s.cfg.firstBytesDistinct then
    match s.faults with
    | f :: _ => .fault (.stopped f)
    | [] =>
      match nextMove s with
      | some m => takeMove m (consumeMove s)
      | none => .next s
  else .refused .illFormedConfiguration

/-- The state `s` with the frame a table word stands for received by the selected device, so that the very next step,
`CS <- High`, commits it. -/
def State.withFetchWord (s : State) (nbits w : Nat) : State :=
  placeFrame (tableFrame s.cfg nbits w) s

end Sys2Proof.Machine
end

