-- ==== Sys2Proof/Safety.lean ====
section
/-! DEFINITION. What claims about this machine are stated in: its invariant (10 R42, 40 R161 and the canonical forms),
where an operation stands, the end of a run (70 R320), and a transfer's rounds. -/

namespace Sys2Proof.Machine

/-! ### The invariant -/

/-- R42: the bounds of the descriptor's counters, mode by mode. -/
structure DescriptorOk (cap : Nat) (d : Descriptor) : Prop where
  cmdWithinTx : d.cmdRemaining ≤ d.txRemaining
  txWithinBuffer : d.txCursor + d.txRemaining ≤ cap
  rxWithinBuffer : d.rxCursor + d.rxRemaining ≤ cap
  idle : d.mode = .idle → d.cmdRemaining = 0 ∧ d.txRemaining = 0 ∧ d.rxRemaining = 0
  sendingCommand : d.mode = .sendingCommandBytes → 0 < d.rxRemaining → d.txRemaining = d.cmdRemaining
  sendingData : d.mode = .sendingDataBytes → d.cmdRemaining = 0 ∧ d.rxRemaining = 0
  receiving : d.mode = .receivingDataBytes → d.cmdRemaining = 0 ∧ d.txRemaining = 0 ∧ 1 ≤ d.rxRemaining

/-- R161, R43: with no transfer in flight the foreground runs and nothing is on the wire or pending; with one, the
foreground sleeps and exactly one byte is on the wire or reported. -/
structure TransferOk (s : State) : Prop where
  atRest : s.desc.mode = .idle → s.fg = .running ∧ s.bus.state = .ready ∧ s.bus.irqPending = false
  inFlight : s.desc.mode ≠ .idle → s.fg = .asleep ∧ (s.bus.state = .ready ↔ s.bus.irqPending = true)

/-- How deep in the call structure an operation may stand: every call goes to an operation of a lower rank (R51). -/
def callRank : Instr → Nat
  | .eraseBlocks _ _ | .programBlocks _ _ _ => 4
  | .erasePage _ | .eraseChip | .programPage _ _ | .readBytes _ _ => 3
  | .deviceOp _ _ | .init => 2
  | .waitReady | .identify | .powerDown | .resume | .reprogramPageSize => 1
  | .issueWrite _ _ | .issueRead _ _ | .decodeId _ | .pageOffset _ | .identifyFrame _ | .readStatusFrame _
  | .fastReadFrame _ _ | .pageProgramFrame _ _ | .pageEraseFrame _ | .chipEraseFrame | .blockEraseFrame _
  | .bufferWriteFrame _ _ | .bufferReadFrame _ _ | .bufferToMainFrame _ | .mainToBufferFrame _ | .powerDownFrame
  | .resumeFrame | .pageSizePow2Frame | .busStep | .teWrite _ _ | .teRead _ _ | .byteComplete | .deviceExchange _
  | .commit | .deviceComplete => 0

/-- Each operation, from the current one out to the first, stands low enough that no more than four callers can lie
beneath it (R51: "its depth is at most 4"). -/
def depthOk : List Nat → Prop
  | [] => True
  | r :: rest => r + rest.length ≤ 4 ∧ depthOk rest

/-- The call stack's bound (R51); at no operation the stack is empty (70 R320). -/
def StackOk (f : Fcl) : Prop :=
  match f.pc with
  | none => f.stack = []
  | some pc => depthOk (callRank pc.op :: f.stack.map fun a => callRank a.pc.op)

/-- The invariant that every step keeps. -/
structure Inv (s : State) : Prop where
  txLength : s.tx.length = s.cfg.bufCap
  rxLength : s.rx.length = s.cfg.bufCap
  descriptor : DescriptorOk s.cfg.bufCap s.desc
  transfer : TransferOk s
  frameWhileDeselected : s.cs = .high → s.dev.frame = []
  array : Memory.wf (deviceCap s) s.dev.array
  pagebufLength : s.dev.pagebuf.length = devicePage s
  stack : StackOk s.fcl

/-! ### Whole-machine rules -/

/-- The foreground is awake and stands at step `n` of operation `i`, before any call that step makes (R67, R170). -/
abbrev AtOp (i : Instr) (n : Nat) (s : State) : Prop :=
  s.fg = .running ∧ s.fcl.pc = some ⟨i, n⟩ ∧ s.fcl.locals.ret = none

/-- The same step, when the operation it called has returned `r` to it. -/
abbrev Returned (i : Instr) (n : Nat) (r : Result) (s : State) : Prop :=
  s.fg = .running ∧ s.fcl.pc = some ⟨i, n⟩ ∧ s.fcl.locals.ret = some r

/-- The device takes any frame that does not address the array (R226, R227). -/
abbrev DeviceIdle (s : State) : Prop := s.dev.power = .active ∧ s.dev.busy = false

/-- The device takes a page-addressed frame at `off` (R226, R227, R244, R247). -/
abbrev PageFrameTaken (off : Offset) (s : State) : Prop :=
  DeviceIdle s ∧ s.dev.format = .pow2 ∧ off.toNat < deviceCap s

/-! ### Launches (70 R320, R322) -/

/-- A launch: the reset, then `init`, then the list `calls` of top-level operations (R320). -/
def State.launch (c : Config) (calls : List Instr) : State := { State.resetAt c with calls := calls }

/-- P-reset (R322): the state after a reset, in what R64 says of the block and R303 or R245 of the device. -/
structure PReset (s : State) : Prop where
  mode : s.desc.mode = .idle
  counters : s.desc.txCursor = 0 ∧ s.desc.txRemaining = 0 ∧ s.desc.rxCursor = 0 ∧ s.desc.rxRemaining = 0 ∧
    s.desc.cmdRemaining = 0
  buffers : s.tx.length = s.cfg.bufCap ∧ s.rx.length = s.cfg.bufCap
  foreground : s.fg = .running
  bus : s.bus.state = .ready ∧ s.bus.irqPending = false
  fcl : s.fcl = Fcl.reset
  trace : s.trace = []
  power : s.dev.power = .active
  busy : s.dev.busy = false
  pow2Pending : s.dev.pow2Pending = false
  frame : s.dev.frame = []
  pagebuf : s.dev.pagebuf.length = devicePage s

/-- The geometry `identify` selects for the attached device (41 R177, R178), whose pages the page operations send. -/
def identifiedGeometry (c : Config) : Option Geometry :=
  (decodeIdBytes c (c.devId.take c.idReadLen)).map fun k => c.geom[k]

/-- R316: `BUF_CAP` is at least `4 + 2^page_shift` for `program_page`, and so for `program_blocks`, and at least
`length` for `read_bytes`. -/
def CapacityFor (c : Config) : Instr → Prop
  | .programPage _ _ | .programBlocks _ _ _ => ∀ g, identifiedGeometry c = some g → 4 + g.pageSize ≤ c.bufCap
  | .readBytes _ length => length ≤ c.bufCap
  | .waitReady | .identify | .erasePage _ | .eraseChip | .eraseBlocks _ _ | .powerDown | .resume
  | .reprogramPageSize | .init | .issueWrite _ _ | .issueRead _ _ | .decodeId _ | .pageOffset _ | .deviceOp _ _
  | .identifyFrame _ | .readStatusFrame _ | .fastReadFrame _ _ | .pageProgramFrame _ _ | .pageEraseFrame _
  | .chipEraseFrame | .blockEraseFrame _ | .bufferWriteFrame _ _ | .bufferReadFrame _ _ | .bufferToMainFrame _
  | .mainToBufferFrame _ | .powerDownFrame | .resumeFrame | .pageSizePow2Frame | .busStep | .teWrite _ _
  | .teRead _ _ | .byteComplete | .deviceExchange _ | .commit | .deviceComplete => True

/-- The launch premises (R322). P-boot's items 1 to 4 (R305) are how the steps of the shifter, the handler, the chip
select and `Sleep()` are written; its item 5 is P-reset's `fcl` with the host's moves (`nextCall`). -/
structure Launched (s : State) : Prop where
  reset : PReset s
  noFault : s.faults = []
  config : s.cfg.wf = true
  /-- P-device: there is a device with the identification, geometry and layout the parameters give. -/
  device : s.cfg.devPresent = true
  /-- P-cap, for every call of the launch. -/
  capacity : ∀ op ∈ s.calls, CapacityFor s.cfg op
  /-- The list is one of top-level operations (R320). -/
  topLevel : ∀ op ∈ s.calls, op.isTopLevel = true

/-- P-device for claims about completion (R322): every busy period of the device ends. -/
structure LaunchedToCompletion (s : State) : Prop extends Launched s where
  eventuallyReady : s.cfg.devEventuallyReady = true

/-- The end of a run (R320): the host has started every call or the last one returned an error; the FCL is at no
operation with a result; nothing is in flight; the device is deselected and ready; no fault. -/
def RunEnded (s : State) : Prop :=
  (s.calls = [] ∨ ∃ e, s.fcl.result = some (.err e)) ∧
  s.fcl.pc = none ∧ s.fcl.stack = [] ∧ s.fcl.result ≠ none ∧ s.desc.mode = .idle ∧ s.bus.state = .ready ∧
  s.bus.irqPending = false ∧ s.cs = .high ∧ s.dev.busy = false ∧ s.faults = []

/-- What is observed at the end of a run (R320). -/
structure Observation where
  /-- `fcl.result` of every call in order, `init`'s first. -/
  results : List Result
  array : List Byte
  format : PageFormat
  power : Power
  geometry : Option Geometry
deriving DecidableEq, Repr

/-- The observation at the end of a run (R320). -/
def observe (s : State) : Observation where
  results := s.fcl.results
  array := s.dev.array.readBytes 0 (deviceCap s)
  format := s.dev.format
  power := s.dev.power
  geometry := s.fcl.geometry

/-! ### Runs of instructions -/

/-- One after the other, stopping at the first that does not answer a next state. -/
def thenExec (o : Host.Outcome State Fault Refusal) (i : Instr) : Host.Outcome State Fault Refusal :=
  match o with
  | .next s => exec i s
  | .fault r => .fault r
  | .refused r => .refused r

/-- `n` rounds of a transfer: one exchange on the bus, then the handler (R141, R145). -/
def rounds : Nat → State → Host.Outcome State Fault Refusal
  | 0, s => .next s
  | n + 1, s => thenExec (thenExec (rounds n s) .busStep) .byteComplete

/-- `o`, then `n` rounds of a transfer. -/
def thenRounds (o : Host.Outcome State Fault Refusal) (n : Nat) : Host.Outcome State Fault Refusal :=
  match o with
  | .next s => rounds n s
  | .fault r => .fault r
  | .refused r => .refused r

/-- One whole `issue_write(frame, n_cmd)` from its step 1 (R172): fill, select, call, the transfer's rounds, deselect,
return. -/
def issueWriteRun (frame : List Byte) (nCmd : Nat) (s : State) : Host.Outcome State Fault Refusal :=
  let i := Instr.issueWrite frame nCmd
  thenExec (thenExec (thenRounds (thenExec (thenExec (exec i s) i) i) frame.length) i) i

/-- One whole `issue_read(cmd, n_resp)` from its step 1 (R173). -/
def issueReadRun (cmd : List Byte) (nResp : Nat) (s : State) : Host.Outcome State Fault Refusal :=
  let i := Instr.issueRead cmd nResp
  thenExec (thenExec (thenRounds (thenExec (thenExec (exec i s) i) i) (cmd.length + nResp)) i) i

end Sys2Proof.Machine
end

