-- ==== Sys2Proof/Certificates/Slice0/Obligations.lean ====
section
/-! DEFINITION. The statements about the model, each from the spec's numbered rules. Every statement about a next state
holds for every configuration, since `cfg` is a field of the state it quantifies over. -/

open Sys2Proof Sys2Proof.Machine

/-! ### Encoding -/

/-- Words written out from 30_encoding.md section 3 at the informative opcodes decode to the frames they stand for. -/
def Obligations.SpecWordsDecode : Prop :=
  ∀ p ∈ ([([0x9F, 0xFF, 0xFF, 0xFF], .identifyFrame 3),
      ([0xD7, 0xFF], .readStatusFrame 1),
      ([0x0B, 0x00, 0x03, 0x00, 0xFF, 0xFF, 0xFF], .fastReadFrame 0x000300 2),
      ([0x82, 0x00, 0x01, 0x00, 0xAA, 0x55], .pageProgramFrame 0x000100 [0xAA, 0x55]),
      ([0x81, 0x07, 0xFF, 0x00], .pageEraseFrame 0x07FF00),
      ([0xC7, 0x94, 0x80, 0x9A], .chipEraseFrame),
      ([0x53, 0x7F, 0xFC, 0x00], .mainToBufferFrame 0x7FFC00),
      ([0xB9], .powerDownFrame),
      ([0x3D, 0x2A, 0x80, 0xA6], .pageSizePow2Frame)] : List (List Byte × Instr)),
    decode Config.informative p.1 = .ok p.2

/-- R101, R102, R120: every frame, with every operand at every value, is encoded, and the device's decoder reads it
back, at every configuration whose first bytes are distinct. -/
def Obligations.EncodedFramesDecodeBack : Prop :=
  ∀ (c : Config) (i : Instr), c.firstBytesDistinct = true → i.isFrame = true →
    ∃ f, encode c i = some f ∧ decode c f = .ok i

/-- R242: a committed frame with an unknown first byte, or a 4-byte sequence with a wrong byte, faults
`UnknownCommand`, and the fault is recorded on the state before the step. That a sequence cut short is broken only by a
wrong byte is the model's reading (log 9). -/
def Obligations.UnknownFramesFault : Prop :=
  ∀ (s : State) (op : Byte) (rest : List Byte), s.cfg.devPresent = true → s.cfg.firstBytesDistinct = true →
    s.dev.frame = op :: rest →
    (op ∉ s.cfg.firstBytes ∨
      (op = s.cfg.seqChipErase.s0 ∧
        rest.take 3 ≠ [s.cfg.seqChipErase.s1, s.cfg.seqChipErase.s2, s.cfg.seqChipErase.s3].take rest.length) ∨
      (op = s.cfg.seqPow2.s0 ∧
        rest.take 3 ≠ [s.cfg.seqPow2.s1, s.cfg.seqPow2.s2, s.cfg.seqPow2.s3].take rest.length)) →
    exec .commit s = .next (recordFault .unknownCommand s)

/-- R243: a frame shorter than its format's head or longer than its fixed length faults `MalformedFrame`. For a
4-byte sequence that is so far right but too short or too long this is the model's reading (log 9). -/
def Obligations.MalformedFramesFault : Prop :=
  ∀ (s : State) (op : Byte) (rest : List Byte), s.cfg.devPresent = true → s.cfg.firstBytesDistinct = true →
    s.dev.frame = op :: rest →
    ((op ∈ [s.cfg.opcPowerDown, s.cfg.opcResume] ∧ rest ≠ []) ∨
      (op ∈ [s.cfg.opcPageErase, s.cfg.opcBlockErase, s.cfg.opcBufToMainErase, s.cfg.opcMainToBuf] ∧
        rest.length ≠ 3) ∨
      (op ∈ [s.cfg.opcProgThruBuf, s.cfg.opcBufWrite] ∧ rest.length < 3) ∨
      (op ∈ [s.cfg.opcFastRead, s.cfg.opcBufRead] ∧ rest.length < 4) ∨
      (op = s.cfg.seqChipErase.s0 ∧ rest.length ≠ 3 ∧
        rest.take 3 = [s.cfg.seqChipErase.s1, s.cfg.seqChipErase.s2, s.cfg.seqChipErase.s3].take rest.length) ∨
      (op = s.cfg.seqPow2.s0 ∧ rest.length ≠ 3 ∧
        rest.take 3 = [s.cfg.seqPow2.s1, s.cfg.seqPow2.s2, s.cfg.seqPow2.s3].take rest.length)) →
    exec .commit s = .next (recordFault .malformedFrame s)

/-! ### The step -/

/-- A step runs the fetched instruction: where the next move is an agent's and the agent has an instruction, `step` is
`exec` of that instruction on the state with the move used up. The FCL's instruction is the operation at `fcl.pc`
(R67); the shifter's, the handler's and the device's are BUS_STEP, BYTE_COMPLETE and DEVICE_COMPLETE exactly when
R141, R270 and R225 enable them. -/
def Obligations.StepRunsTheFetchedInstruction : Prop :=
  (∀ (s : State) (a : Agent) (i : Instr), s.cfg.firstBytesDistinct = true → s.faults = [] →
    nextMove s = some (.agent a) → fetch a (consumeMove s) = some i → step s = exec i (consumeMove s)) ∧
  (∀ (s : State) (i : Instr), fetch .fcl s = some i ↔
    s.fg = .running ∧ i.isFclOp = true ∧ ∃ n, s.fcl.pc = some ⟨i, n⟩) ∧
  (∀ (s : State) (i : Instr), fetch .bus s = some i ↔ i = .busStep ∧ ∃ b, s.bus.state = .shifting b) ∧
  (∀ (s : State) (i : Instr), fetch .handler s = some i ↔
    i = .byteComplete ∧ s.bus.irqPending = true ∧ s.fg = .asleep ∧ s.bus.state = .ready) ∧
  (∀ (s : State) (i : Instr), fetch .device s = some i ↔ i = .deviceComplete ∧ s.dev.busy = true)

/-- R222: COMMIT of a frame that decodes to `i` is `exec i` on the state with the frame taken; where that faults, the
fault is recorded on the state before the commit. An empty frame has no effect. -/
def Obligations.CommitRunsTheDecodedFrame : Prop :=
  (∀ (s t : State) (i : Instr), s.cfg.devPresent = true → s.faults = [] → decode s.cfg s.dev.frame = .ok i →
    exec i { s with dev := { s.dev with frame := [] } } = .next t →
    exec .commit s = .next (if t.faults = [] then t else { s with faults := t.faults })) ∧
  (∀ (s : State), s.dev.frame = [] → exec .commit s = .next s) ∧
  (∀ (s : State), s.cfg.devPresent = true → s.cfg.firstBytesDistinct = true → DeviceIdle s →
    s.dev.frame = [s.cfg.opcPowerDown] →
    exec .commit s = .next { s with dev := { s.dev with frame := [], power := .poweredDown } })

/-- R321, R320: where the host's next move is to start a call, no operation runs and the last one returned no error, the
first call of its list starts at step 1; where none is left, one runs, or the last one failed, nothing starts and the list
stays. That executing any FCL operation while none runs starts it and does its step 1 is the model's own choice (log 8):
executing it then answers what executing it started answers, where no fault is raised. -/
def Obligations.HostStartsAnOperation : Prop :=
  (∀ (s : State) (op : Instr) (calls : List Instr) (rest : List Move), s.cfg.firstBytesDistinct = true →
    s.faults = [] → s.env = .startCall :: rest → s.calls = op :: calls → s.fg = .running → s.fcl.pc = none →
    (∀ e, s.fcl.result ≠ some (.err e)) → op.isTopLevel = true →
    step s = .next { s with
      env := rest
      calls := calls
      fcl := { s.fcl with pc := some ⟨op, 1⟩, locals := {} } }) ∧
  (∀ (s : State) (rest : List Move), s.cfg.firstBytesDistinct = true → s.faults = [] → s.env = .startCall :: rest →
    (s.calls = [] ∨ s.fg = .asleep ∨ s.fcl.pc ≠ none ∨ ∃ e, s.fcl.result = some (.err e)) →
    step s = .next { s with env := rest }) ∧
  (∀ (s t : State) (i : Instr), i.isFclOp = true → s.fg = .running → s.fcl.pc = none → s.faults = [] →
    t.faults = [] →
    (exec i s = .next t ↔ exec i { s with fcl := { s.fcl with pc := some ⟨i, 1⟩, locals := {} } } = .next t))

/-- R170, R321: no FCL operation executes while the foreground sleeps, nor while another operation is the current
one; the model answers by refusals (log 3, log 8). -/
def Obligations.OperationsNeedTheForeground : Prop :=
  ∀ (s : State) (i : Instr), i.isFclOp = true →
    (s.fg = .asleep → exec i s = .refused .notEnabled) ∧
    (∀ pc, s.fg = .running → s.fcl.pc = some pc → pc.op ≠ i → exec i s = .refused .operationRunning)

/-! ### Rules about the whole machine -/

/-- R268: a step that raises a fault writes nothing but the record; faults are sticky; once one is recorded no step is
taken; a faulted state is never the end of a run (R320). -/
def Obligations.FaultsArePreciseAndSticky : Prop :=
  (∀ (i : Instr) (s t : State), exec i s = .next t → t.faults ≠ s.faults →
    ∃ f, f ∉ s.faults ∧ t = { s with faults := s.faults ++ [f] }) ∧
  (∀ (i : Instr) (s t : State) (f : FaultName), exec i s = .next t → f ∈ s.faults → f ∈ t.faults) ∧
  (∀ (s t : State), s.faults ≠ [] → step s ≠ .next t) ∧
  (∀ (s : State), s.faults ≠ [] → ¬ RunEnded s)

/-- R30: the parameters are fixed arguments of the step relation: no instruction and no step changes one. -/
def Obligations.ParametersNeverChange : Prop :=
  (∀ (i : Instr) (s t : State), exec i s = .next t → t.cfg = s.cfg) ∧
  (∀ (s t : State), step s = .next t → t.cfg = s.cfg)

/-- R64, R303, R304: what the first power-on leaves, at every configuration and for every list of calls: the values the
spec gives; where the parameters meet P-config, a device is there and the list is of top-level operations that fit the
buffers, it meets the launch premises (R322). -/
def Obligations.ResetLeavesTheSpecsValues : Prop :=
  ∀ (c : Config) (calls : List Instr),
    let s := State.launch c calls
    s.cfg = c ∧ s.calls = calls ∧ s = { State.resetAt c with calls := calls } ∧ s.desc.mode = .idle ∧
    s.desc.txCursor = 0 ∧ s.desc.txRemaining = 0 ∧ s.desc.rxCursor = 0 ∧ s.desc.rxRemaining = 0 ∧
    s.desc.cmdRemaining = 0 ∧ s.fg = .running ∧ s.bus.state = .ready ∧ s.bus.irqPending = false ∧
    s.fcl.geometry = none ∧ s.fcl.pc = some ⟨.init, 1⟩ ∧ s.fcl.locals = {} ∧ s.fcl.stack = [] ∧
    s.fcl.result = none ∧ s.trace = [] ∧ s.faults = [] ∧ s.dev.power = .active ∧ s.dev.busy = false ∧
    s.dev.format = c.devInitialFormat ∧ s.dev.pow2Pending = false ∧ s.dev.frame = [] ∧ PReset s ∧
    (c.wf = true → c.devPresent = true → (∀ op ∈ calls, op.isTopLevel = true ∧ CapacityFor c op) → Launched s)

/-- The invariant (R42, R161, R51 and the canonical forms) holds at reset, at every configuration. -/
def Obligations.InvariantHoldsAtReset : Prop := ∀ c : Config, Inv (State.resetAt c)

/-- Every step, of any agent or of the host, keeps the invariant. -/
def Obligations.EveryStepKeepsTheInvariant : Prop := ∀ s t : State, Inv s → step s = .next t → Inv t

/-- R153: the mode changes only along the listed edges: from `Idle` by a call, and elsewhere by the handler. -/
def Obligations.ModeChangesOnlyAlongItsEdges : Prop :=
  ∀ (i : Instr) (s t : State), exec i s = .next t →
    t.desc.mode = s.desc.mode ∨
    (s.desc.mode = .idle ∧ t.desc.mode = .sendingCommandBytes ∧
      ((∃ a b, i = .teWrite a b) ∨ (∃ a b, i = .teRead a b) ∨ (∃ f n, i = .issueWrite f n) ∨
        ∃ f n, i = .issueRead f n)) ∨
    (i = .byteComplete ∧
      ((s.desc.mode = .sendingCommandBytes ∧ t.desc.mode = .receivingDataBytes) ∨
       (s.desc.mode = .sendingCommandBytes ∧ t.desc.mode = .sendingDataBytes) ∨
       (s.desc.mode ≠ .idle ∧ t.desc.mode = .idle)))

/-- R72, R157: only the handler, in mode ReceivingDataBytes, writes RX. -/
def Obligations.RxIsWrittenOnlyByTheReceivingHandler : Prop :=
  ∀ (i : Instr) (s t : State), exec i s = .next t → t.rx ≠ s.rx →
    i = .byteComplete ∧ s.desc.mode = .receivingDataBytes

/-- R48, R159: chip select is driven by FCL operations alone: no engine, bus or device instruction changes it. -/
def Obligations.ChipSelectIsDrivenByTheFcl : Prop :=
  ∀ (i : Instr) (s t : State), exec i s = .next t → t.cs ≠ s.cs →
    (∃ f n, i = .issueWrite f n) ∨ (∃ f n, i = .issueRead f n) ∨ i = .init

/-- R49, R180: `fcl.geometry` is written only at step 4 of `identify`. -/
def Obligations.GeometryIsWrittenByIdentifyAlone : Prop :=
  ∀ (i : Instr) (s t : State), exec i s = .next t → t.fcl.geometry ≠ s.fcl.geometry →
    i = .identify ∧ s.fcl.pc = some ⟨.identify, 4⟩

/-- R73, R82: no byte of the array changes but by the five storing frames and by the steps that commit a frame. -/
def Obligations.ArrayChangesOnlyByStoringFrames : Prop :=
  ∀ (i : Instr) (s t : State), exec i s = .next t →
    ((∃ o l, i = .pageProgramFrame o l) ∨ (∃ o, i = .pageEraseFrame o) ∨ i = .chipEraseFrame ∨
      (∃ o, i = .blockEraseFrame o) ∨ (∃ o, i = .bufferToMainFrame o) ∨ i = .commit ∨
      ((∃ f n, i = .issueWrite f n) ∧ s.cs = .low) ∨ ((∃ f n, i = .issueRead f n) ∧ s.cs = .low) ∨
      (i = .init ∧ s.cs = .low)) ∨
    ∀ a, t.dev.array.read a = s.dev.array.read a

/-- R62, R281: the trace is never consulted: with any other trace, an instruction answers the same next state but for
the trace. -/
def Obligations.TraceIsNeverConsulted : Prop :=
  ∀ (i : Instr) (s t : State) (tr : List TraceRecord), exec i s = .next t →
    ∃ tr', exec i { s with trace := tr } = .next { t with trace := tr' }

/-! ### Transfer Engine and bus -/

/-- R143: TE_WRITE starts a transfer, or faults before anything is written. -/
def Obligations.TeWriteStartsATransfer : Prop :=
  ∀ (s : State) (nCmd nData : Nat),
    (∀ b, s.desc.mode = .idle → 1 ≤ nCmd → nCmd + nData ≤ s.cfg.bufCap → s.tx[0]? = some b →
      s.bus.state = .ready →
      exec (.teWrite nCmd nData) s = .next { s with
        desc := { mode := .sendingCommandBytes, commandByte := b, txCursor := 1, txRemaining := nCmd - 1 + nData,
                  rxCursor := 0, rxRemaining := 0, cmdRemaining := nCmd - 1 }
        bus := { s.bus with state := .shifting b }
        fg := .asleep }) ∧
    (s.desc.mode ≠ .idle → exec (.teWrite nCmd nData) s = .next (recordFault .transferInFlight s)) ∧
    (s.desc.mode = .idle → nCmd < 1 → exec (.teWrite nCmd nData) s = .next (recordFault .emptyFrame s)) ∧
    (s.desc.mode = .idle → 1 ≤ nCmd → s.cfg.bufCap < nCmd + nData →
      exec (.teWrite nCmd nData) s = .next (recordFault .bufferOverflow s)) ∧
    (s.desc.mode = .idle → 1 ≤ nCmd → nCmd + nData ≤ s.cfg.bufCap → 0 < s.tx.length → s.bus.state ≠ .ready →
      exec (.teWrite nCmd nData) s = .next (recordFault .busOverrun s))

/-- R144: TE_READ starts a transfer, or faults before anything is written; each buffer's capacity is checked. -/
def Obligations.TeReadStartsATransfer : Prop :=
  ∀ (s : State) (nCmd nResp : Nat),
    (∀ b, s.desc.mode = .idle → 1 ≤ nCmd → nCmd ≤ s.cfg.bufCap → nResp ≤ s.cfg.bufCap → s.tx[0]? = some b →
      s.bus.state = .ready →
      exec (.teRead nCmd nResp) s = .next { s with
        desc := { mode := .sendingCommandBytes, commandByte := b, txCursor := 1, txRemaining := nCmd - 1,
                  rxCursor := 0, rxRemaining := nResp, cmdRemaining := nCmd - 1 }
        bus := { s.bus with state := .shifting b }
        fg := .asleep }) ∧
    (s.desc.mode ≠ .idle → exec (.teRead nCmd nResp) s = .next (recordFault .transferInFlight s)) ∧
    (s.desc.mode = .idle → nCmd < 1 → exec (.teRead nCmd nResp) s = .next (recordFault .emptyFrame s)) ∧
    (s.desc.mode = .idle → 1 ≤ nCmd → (s.cfg.bufCap < nCmd ∨ s.cfg.bufCap < nResp) →
      exec (.teRead nCmd nResp) s = .next (recordFault .bufferOverflow s)) ∧
    (s.desc.mode = .idle → 1 ≤ nCmd → nCmd ≤ s.cfg.bufCap → nResp ≤ s.cfg.bufCap → 0 < s.tx.length →
      s.bus.state ≠ .ready → exec (.teRead nCmd nResp) s = .next (recordFault .busOverrun s))

/-- R146 to R149: the handler in the command phase. -/
def Obligations.HandlerInTheCommandPhase : Prop :=
  ∀ (s : State), s.bus.irqPending = true → s.fg = .asleep → s.bus.state = .ready →
    s.desc.mode = .sendingCommandBytes →
    (∀ b, 0 < s.desc.cmdRemaining → s.tx[s.desc.txCursor]? = some b →
      exec .byteComplete s = .next { s with
        bus := { s.bus with state := .shifting b, irqPending := false }
        desc := { s.desc with
          txCursor := s.desc.txCursor + 1
          txRemaining := s.desc.txRemaining - 1
          cmdRemaining := s.desc.cmdRemaining - 1 } }) ∧
    (s.desc.cmdRemaining = 0 → 0 < s.desc.rxRemaining →
      exec .byteComplete s = .next { s with
        bus := { s.bus with state := .shifting s.cfg.filler, irqPending := false }
        desc := { s.desc with mode := .receivingDataBytes } }) ∧
    (∀ b, s.desc.cmdRemaining = 0 → s.desc.rxRemaining = 0 → 0 < s.desc.txRemaining →
      s.tx[s.desc.txCursor]? = some b →
      exec .byteComplete s = .next { s with
        bus := { s.bus with state := .shifting b, irqPending := false }
        desc := { s.desc with
          mode := .sendingDataBytes
          txCursor := s.desc.txCursor + 1
          txRemaining := s.desc.txRemaining - 1 } }) ∧
    (s.desc.cmdRemaining = 0 → s.desc.rxRemaining = 0 → s.desc.txRemaining = 0 →
      exec .byteComplete s = .next { s with
        bus := { s.bus with irqPending := false }
        desc := { s.desc with mode := .idle }
        fg := .running })

/-- R150, R151: the handler in the payload phase, and in the response phase, where it stores the received byte, then
asks for the next or ends the transfer. -/
def Obligations.HandlerInTheDataPhases : Prop :=
  ∀ (s : State), s.bus.irqPending = true → s.fg = .asleep → s.bus.state = .ready →
    (∀ b, s.desc.mode = .sendingDataBytes → 0 < s.desc.txRemaining → s.tx[s.desc.txCursor]? = some b →
      exec .byteComplete s = .next { s with
        bus := { s.bus with state := .shifting b, irqPending := false }
        desc := { s.desc with
          txCursor := s.desc.txCursor + 1
          txRemaining := s.desc.txRemaining - 1 } }) ∧
    (s.desc.mode = .sendingDataBytes → s.desc.txRemaining = 0 →
      exec .byteComplete s = .next { s with
        bus := { s.bus with irqPending := false }
        desc := { s.desc with mode := .idle }
        fg := .running }) ∧
    (s.desc.mode = .receivingDataBytes → s.desc.rxCursor < s.rx.length → 1 < s.desc.rxRemaining →
      exec .byteComplete s = .next { s with
        rx := s.rx.set s.desc.rxCursor s.bus.rx
        bus := { s.bus with state := .shifting s.cfg.filler, irqPending := false }
        desc := { s.desc with
          rxCursor := s.desc.rxCursor + 1
          rxRemaining := s.desc.rxRemaining - 1 } }) ∧
    (s.desc.mode = .receivingDataBytes → s.desc.rxCursor < s.rx.length → s.desc.rxRemaining = 1 →
      exec .byteComplete s = .next { s with
        rx := s.rx.set s.desc.rxCursor s.bus.rx
        bus := { s.bus with irqPending := false }
        desc := { s.desc with mode := .idle, rxCursor := s.desc.rxCursor + 1, rxRemaining := 0 }
        fg := .running })

/-- R152, R145: a byte-complete event with no transfer in flight faults `SpuriousByteComplete`; where the event is not
enabled there is no handler step, which the model answers by a refusal (log 3). -/
def Obligations.HandlerOutsideATransfer : Prop :=
  ∀ (s : State),
    (s.bus.irqPending = true → s.fg = .asleep → s.bus.state = .ready → s.desc.mode = .idle →
      exec .byteComplete s = .next (recordFault .spuriousByteComplete s)) ∧
    ((s.bus.irqPending = false ∨ s.fg = .running ∨ s.bus.state ≠ .ready) →
      exec .byteComplete s = .refused .notEnabled)

/-- R141, R220, R223: BUS_STEP exchanges the byte in flight: the selected device receives it and answers
`device_output`; a deselected device's answer is a free value, and so is a missing one's (log 10); the interrupt is then pending. -/
def Obligations.BusStepExchangesOneByte : Prop :=
  ∀ (s : State) (b : Byte), s.bus.state = .shifting b →
    (s.cs = .low → exec .busStep s = .next { s with
      dev := { s.dev with frame := s.dev.frame ++ [b] }
      draws := s.draws + 1
      bus := { state := .ready
               irqPending := true
               rx := if s.cfg.devPresent then deviceOutput s (Config.freeByte s.draws)
                     else Config.freeByte s.draws } }) ∧
    (s.cs = .high → exec .busStep s = .next { s with
      draws := s.draws + 1
      bus := { state := .ready, irqPending := true, rx := Config.freeByte s.draws } })

/-- R220, R223: DEVICE_EXCHANGE by itself. That its answer is kept in `bus.rx` is the model's choice (log 11); a missing
device's answer is free (log 10). -/
def Obligations.DeviceExchangeAppendsTheByte : Prop :=
  ∀ (s : State) (b : Byte),
    (s.cs = .low → exec (.deviceExchange b) s = .next { s with
      dev := { s.dev with frame := s.dev.frame ++ [b] }
      draws := s.draws + 1
      bus := { s.bus with
        rx := if s.cfg.devPresent then deviceOutput s (Config.freeByte s.draws) else Config.freeByte s.draws } }) ∧
    (s.cs = .high → exec (.deviceExchange b) s = .next { s with
      draws := s.draws + 1
      bus := { s.bus with rx := Config.freeByte s.draws } })

/-- R221, R228, R229, R230, R236: the byte the device drives, by the frame received so far; `free` is the free value
of the exchange. -/
def Obligations.DeviceOutputByFrameKind : Prop :=
  ∀ (s : State) (free op : Byte) (rest : List Byte), s.cfg.firstBytesDistinct = true →
    (s.dev.power = .poweredDown → deviceOutput s free = free) ∧
    (s.dev.frame = [] → deviceOutput s free = free) ∧
    (s.dev.power = .active → s.dev.frame = op :: rest →
      (op = s.cfg.opcIdentify → deviceOutput s free = (s.cfg.devId[rest.length]?).getD free) ∧
      (op = s.cfg.opcStatus → deviceOutput s free = statusByte s.cfg s.dev free) ∧
      (op ∉ [s.cfg.opcIdentify, s.cfg.opcStatus] → rest.length < 4 → deviceOutput s free = free) ∧
      (op ∉ [s.cfg.opcIdentify, s.cfg.opcStatus, s.cfg.opcFastRead, s.cfg.opcBufRead] →
        deviceOutput s free = free) ∧
      (∀ a b c d more, rest = a :: b :: c :: d :: more → op = s.cfg.opcFastRead →
        deviceOutput s free =
          if (offsetOf a b c).toNat + more.length < deviceCap s then
            s.dev.array.read ((offsetOf a b c).toNat + more.length)
          else if s.cfg.readWrap then
            s.dev.array.read (((offsetOf a b c).toNat + more.length) % deviceCap s)
          else free) ∧
      (∀ a b c d more, rest = a :: b :: c :: d :: more → op = s.cfg.opcBufRead →
        deviceOutput s free =
          if s.cfg.admitBufferCmds then
            (s.dev.pagebuf[((offsetOf a b c).toNat % devicePage s + more.length) % devicePage s]?).getD free
          else free))

/-- R224, R174: the status byte's two defined bits, and every other bit free. -/
def Obligations.StatusByteReportsTheDevice : Prop :=
  ∀ (c : Config) (d : Device) (free : Byte), c.readyBit ≠ c.pagesizeBit →
    (statusByte c d free).getLsbD c.readyBit.val = (if d.busy then !c.readyWhen else c.readyWhen) ∧
    (statusByte c d free).getLsbD c.pagesizeBit.val = (if d.format = .pow2 then c.pow2When else !c.pow2When) ∧
    (∀ i : Fin 8, i ≠ c.readyBit → i ≠ c.pagesizeBit → (statusByte c d free).getLsbD i.val = free.getLsbD i.val) ∧
    isReady c (statusByte c d free) = !d.busy ∧
    (isPow2 c (statusByte c d free) = true ↔ d.format = .pow2)

/-- R225: DEVICE_COMPLETE, enabled while the device is busy, clears it and nothing else; where it is not enabled the
model answers by a refusal (log 3). -/
def Obligations.DeviceCompleteClearsBusy : Prop :=
  ∀ (s : State),
    (s.dev.busy = true → exec .deviceComplete s = .next { s with dev := { s.dev with busy := false } }) ∧
    (s.dev.busy = false → exec .deviceComplete s = .refused .notEnabled)

/-! ### Device frames -/

/-- R228, R229, R230, R236: IDENTIFY, READ_STATUS, FAST_READ and BUFFER_READ have no effect at commit; READ_STATUS is
accepted while busy. -/
def Obligations.ReadingFramesHaveNoEffect : Prop :=
  ∀ (s : State) (off : Offset) (n : Nat),
    (DeviceIdle s → exec (.identifyFrame n) s = .next s) ∧
    (s.dev.power = .active → exec (.readStatusFrame n) s = .next s) ∧
    (DeviceIdle s → s.dev.format = .pow2 → (s.cfg.readWrap = true ∨ off.toNat + n ≤ deviceCap s) →
      exec (.fastReadFrame off n) s = .next s) ∧
    (DeviceIdle s → s.dev.format = .pow2 → s.cfg.admitBufferCmds = true →
      exec (.bufferReadFrame off n) s = .next s)

/-- R231: PAGE_PROGRAM_THROUGH_BUFFER of one whole aligned page writes the page's bytes and no other, and makes the
device busy; a partial or unaligned program faults. -/
def Obligations.PageProgramWritesThePage : Prop :=
  ∀ (s : State) (off : Offset) (payload : List Byte), PageFrameTaken off s →
    (off.toNat % devicePage s = 0 → payload.length = devicePage s →
      ∃ m : Memory, exec (.pageProgramFrame off payload) s =
          .next { s with dev := { s.dev with array := m, busy := true } } ∧
        (∀ j b, payload[j]? = some b → m.read (off.toNat + j) =
          match s.cfg.programSemantics with
          | .overwrite => b
          | .andWithExisting => s.dev.array.read (off.toNat + j) &&& b) ∧
        (∀ a, a < off.toNat ∨ off.toNat + devicePage s ≤ a → m.read a = s.dev.array.read a)) ∧
    ((off.toNat % devicePage s ≠ 0 ∨ payload.length ≠ devicePage s) →
      exec (.pageProgramFrame off payload) s = .next (recordFault .unmodelledCommand s))

/-- R232: PAGE_ERASE of an aligned page sets the page's bytes to 0xFF and no other, and makes the device busy; an
unaligned one faults. -/
def Obligations.PageEraseErasesThePage : Prop :=
  ∀ (s : State) (off : Offset), PageFrameTaken off s →
    (off.toNat % devicePage s = 0 →
      ∃ m : Memory, exec (.pageEraseFrame off) s =
          .next { s with dev := { s.dev with array := m, busy := true } } ∧
        (∀ a, off.toNat ≤ a → a < off.toNat + devicePage s → m.read a = 0xFF) ∧
        (∀ a, a < off.toNat ∨ off.toNat + devicePage s ≤ a → m.read a = s.dev.array.read a)) ∧
    (off.toNat % devicePage s ≠ 0 → exec (.pageEraseFrame off) s = .next (recordFault .unmodelledCommand s))

/-- R233: CHIP_ERASE sets every byte to 0xFF and makes the device busy, in either layout. -/
def Obligations.ChipEraseErasesEveryByte : Prop :=
  ∀ (s : State), DeviceIdle s →
    ∃ m : Memory, exec .chipEraseFrame s = .next { s with dev := { s.dev with array := m, busy := true } } ∧
      ∀ a, m.read a = 0xFF

/-- R234: with `ADMIT_BUFFER_CMDS`, BLOCK_ERASE of an aligned block sets the bytes of its 8 pages to 0xFF and no other
byte, and makes the device busy. Of a block that passes the array's end these are the bytes the array has (R73, log 11).
Unaligned or not admitted, it faults. -/
def Obligations.BlockEraseErasesEightPages : Prop :=
  ∀ (s : State) (off : Offset), PageFrameTaken off s →
    (s.cfg.admitBufferCmds = true → off.toNat % (8 * devicePage s) = 0 →
      ∃ m : Memory, exec (.blockEraseFrame off) s =
          .next { s with dev := { s.dev with array := m, busy := true } } ∧
        (∀ a, off.toNat ≤ a → a < off.toNat + 8 * devicePage s → a < deviceCap s → m.read a = 0xFF) ∧
        (∀ a, a < off.toNat ∨ off.toNat + 8 * devicePage s ≤ a ∨ deviceCap s ≤ a →
          m.read a = s.dev.array.read a)) ∧
    (s.cfg.admitBufferCmds = true → off.toNat % (8 * devicePage s) = 0 → s.cfg.devGeom.pageCount % 8 = 0 →
      off.toNat + 8 * devicePage s ≤ deviceCap s) ∧
    ((s.cfg.admitBufferCmds = false ∨ off.toNat % (8 * devicePage s) ≠ 0) →
      exec (.blockEraseFrame off) s = .next (recordFault .unmodelledCommand s))

/-- R235: with `ADMIT_BUFFER_CMDS`, BUFFER_WRITE puts data byte `j` at page-buffer entry `(off mod P + j) mod P`, a
later byte over an earlier one, and changes nothing else; the device does not become busy. Without, it faults. -/
def Obligations.BufferWriteFillsThePageBuffer : Prop :=
  ∀ (s : State) (off : Offset) (l : List Byte), DeviceIdle s → s.dev.format = .pow2 →
    (s.cfg.admitBufferCmds = true → s.dev.pagebuf.length = devicePage s →
      ∃ buf : List Byte, exec (.bufferWriteFrame off l) s = .next { s with dev := { s.dev with pagebuf := buf } } ∧
        buf.length = devicePage s ∧
        (∀ j b, l[j]? = some b →
          (∀ k, j < k → k < l.length →
            (off.toNat % devicePage s + k) % devicePage s ≠ (off.toNat % devicePage s + j) % devicePage s) →
          buf[(off.toNat % devicePage s + j) % devicePage s]? = some b) ∧
        (∀ i, (∀ j, j < l.length → (off.toNat % devicePage s + j) % devicePage s ≠ i) →
          buf[i]? = s.dev.pagebuf[i]?)) ∧
    (s.cfg.admitBufferCmds = false → exec (.bufferWriteFrame off l) s = .next (recordFault .unmodelledCommand s))

/-- R237, R238: with `ADMIT_BUFFER_CMDS`, BUFFER_TO_MAIN_WITH_ERASE writes the page buffer to the page and
MAIN_TO_BUFFER_TRANSFER reads the page into the page buffer; no other byte changes. Unaligned or not admitted, they
fault. -/
def Obligations.PageBufferTransfers : Prop :=
  ∀ (s : State) (off : Offset), PageFrameTaken off s →
    (s.cfg.admitBufferCmds = true → off.toNat % devicePage s = 0 → s.dev.pagebuf.length = devicePage s →
      (∃ m : Memory, exec (.bufferToMainFrame off) s =
          .next { s with dev := { s.dev with array := m, busy := true } } ∧
        (∀ j b, s.dev.pagebuf[j]? = some b → m.read (off.toNat + j) = b) ∧
        (∀ a, a < off.toNat ∨ off.toNat + devicePage s ≤ a → m.read a = s.dev.array.read a)) ∧
      (∃ buf : List Byte, exec (.mainToBufferFrame off) s =
          .next { s with dev := { s.dev with pagebuf := buf, busy := true } } ∧
        buf.length = devicePage s ∧
        ∀ j, j < devicePage s → buf[j]? = some (s.dev.array.read (off.toNat + j)))) ∧
    ((s.cfg.admitBufferCmds = false ∨ off.toNat % devicePage s ≠ 0) →
      exec (.bufferToMainFrame off) s = .next (recordFault .unmodelledCommand s) ∧
      exec (.mainToBufferFrame off) s = .next (recordFault .unmodelledCommand s))

/-- R239, R240, R241: POWER_DOWN, RESUME and PAGE_SIZE_POW2: their effects and their faults. -/
def Obligations.PowerAndLayoutFrames : Prop :=
  ∀ (s : State),
    (DeviceIdle s → exec .powerDownFrame s = .next { s with dev := { s.dev with power := .poweredDown } }) ∧
    (s.dev.busy = false → exec .resumeFrame s = .next { s with dev := { s.dev with power := .active } }) ∧
    (s.dev.busy = false → s.dev.power = .active → exec .resumeFrame s = .next s) ∧
    (DeviceIdle s →
      exec .pageSizePow2Frame s = .next { s with dev := { s.dev with pow2Pending := true, busy := true } }) ∧
    (s.dev.busy = true → exec .resumeFrame s = .next (recordFault .deviceBusyCommand s)) ∧
    (∀ i ∈ [Instr.powerDownFrame, .pageSizePow2Frame],
      (s.dev.power = .poweredDown → exec i s = .next (recordFault .devicePoweredDownCommand s)) ∧
      (s.dev.power = .active → s.dev.busy = true → exec i s = .next (recordFault .deviceBusyCommand s)))

/-- R227, R226: every frame but RESUME faults while the device is powered down, and every frame but READ_STATUS
faults while it is busy. -/
def Obligations.PowerAndBusyRulesOfTheDevice : Prop :=
  ∀ (s : State) (i : Instr), i.isFrame = true →
    (i ≠ .resumeFrame → s.dev.power = .poweredDown →
      exec i s = .next (recordFault .devicePoweredDownCommand s)) ∧
    ((∀ n, i ≠ .readStatusFrame n) → (i = .resumeFrame ∨ s.dev.power = .active) → s.dev.busy = true →
      exec i s = .next (recordFault .deviceBusyCommand s))

/-- R244, R247, R230: on an active and ready device, the legacy layout, then the range: a page-addressed frame whose
offset lies outside the array, a fast read that passes the array's end without `READ_WRAP`. BUFFER_READ needs
`ADMIT_BUFFER_CMDS` (R236). -/
def Obligations.AddressRulesOfTheDevice : Prop :=
  ∀ (s : State) (off : Offset) (n : Nat) (l : List Byte), DeviceIdle s →
    (s.dev.format = .legacy →
      ∀ i ∈ [Instr.fastReadFrame off n, .pageProgramFrame off l, .pageEraseFrame off, .blockEraseFrame off,
        .bufferWriteFrame off l, .bufferReadFrame off n, .bufferToMainFrame off, .mainToBufferFrame off],
        exec i s = .next (recordFault .legacyAddressing s)) ∧
    (s.dev.format = .pow2 → deviceCap s ≤ off.toNat →
      ∀ i ∈ [Instr.pageProgramFrame off l, .pageEraseFrame off, .blockEraseFrame off, .bufferToMainFrame off,
        .mainToBufferFrame off],
        exec i s = .next (recordFault .addressOutOfRange s)) ∧
    (s.dev.format = .pow2 → s.cfg.readWrap = false → deviceCap s < off.toNat + n →
      exec (.fastReadFrame off n) s = .next (recordFault .readOutOfRange s)) ∧
    (s.dev.format = .pow2 → s.cfg.admitBufferCmds = false →
      exec (.bufferReadFrame off n) s = .next (recordFault .unmodelledCommand s))

/-- R196 at the device: under `Overwrite`, after a page program the fast-read output for each byte of the page is the
payload byte, whatever the free value, as long as the array is unchanged. -/
def Obligations.ProgrammedPageReadsBack : Prop :=
  ∀ (s t u : State) (off : Offset) (payload : List Byte) (j : Nat) (b free d x y z : Byte) (more : List Byte),
    PageFrameTaken off s → off.toNat % devicePage s = 0 → payload.length = devicePage s →
    s.cfg.programSemantics = .overwrite → s.cfg.firstBytesDistinct = true →
    exec (.pageProgramFrame off payload) s = .next t → u.dev.array = t.dev.array → u.cfg = t.cfg →
    u.dev.power = .active → offsetOf x y z = off → more.length = j → payload[j]? = some b →
    u.dev.frame = s.cfg.opcFastRead :: x :: y :: z :: d :: more →
    deviceOutput u free = b

/-- R300, R245, R248: a power cycle with no operation running leaves P-reset (R322); the array and the layout are kept
if the device is ready with no layout change pending, and a completed reformat makes the layout power-of-two. Two clauses
rest on the model's own choices: that the move carries the list of calls of the launch it begins (R320; log 14), and that
the host may cycle a busy device, which R321 tells it not to (log 7), with the effect R245 gives. -/
def Obligations.PowerCycleResetsTheBlock : Prop :=
  ∀ (s : State) (calls : List Instr) (rest : List Move), s.cfg.firstBytesDistinct = true → s.faults = [] →
    s.env = .powerCycle calls :: rest → s.fg = .running → s.fcl.pc = none →
    ∃ t, step s = .next t ∧ t.cfg = s.cfg ∧ t.env = rest ∧ t.calls = calls ∧ t.faults = [] ∧ PReset t ∧
      (s.dev.busy = false → s.dev.pow2Pending = false →
        t.dev.format = s.dev.format ∧ ∀ a, t.dev.array.read a = s.dev.array.read a) ∧
      (s.dev.busy = false → s.dev.pow2Pending = true → t.dev.format = .pow2) ∧
      (s.dev.busy = true → s.dev.pow2Pending = false → t.dev.format = s.dev.format)

/-! ### Flash Command Layer -/

/-- R67, R51, R52: within an operation `goto` moves `fcl.pc`; a call stacks the caller; a return pops it and hands it the
result, or at top level leaves the result as `fcl.result`, the last of the results of the launch in order (R320, log 14).
Nothing outside the FCL's control position changes. -/
def Obligations.FclControlMoves : Prop :=
  ∀ (s : State) (pc : Pc) (n : Nat) (i : Instr) (r : Result), s.fcl.pc = some pc →
    goto n s = { s with fcl := { s.fcl with pc := some ⟨pc.op, n⟩, locals := { s.fcl.locals with ret := none } } } ∧
    callOp i s = { s with fcl := { s.fcl with
      pc := some ⟨i, 1⟩, locals := {}, stack := ⟨pc, s.fcl.locals⟩ :: s.fcl.stack } } ∧
    (s.fcl.stack = [] →
      returnOp r s = { s with fcl := { s.fcl with
        pc := none, locals := {}, results := s.fcl.results ++ [r] } } ∧
      (returnOp r s).fcl.result = some r ∧ (observe (returnOp r s)).results = s.fcl.results ++ [r]) ∧
    (∀ a rest, s.fcl.stack = a :: rest →
      returnOp r s = { s with fcl := { s.fcl with
        pc := some a.pc, locals := { a.locals with ret := some r }, stack := rest } })

/-- R172: the five steps of issue_write. -/
def Obligations.IssueWriteSteps : Prop :=
  ∀ (s : State) (f : List Byte) (nCmd : Nat),
    (AtOp (.issueWrite f nCmd) 1 s →
      (s.cfg.bufCap < f.length → exec (.issueWrite f nCmd) s = .next (recordFault .bufferOverflow s)) ∧
      (f.length ≤ s.cfg.bufCap → s.desc.mode ≠ .idle →
        exec (.issueWrite f nCmd) s = .next (recordFault .bufferAccessDuringTransfer s)) ∧
      (f.length ≤ s.cfg.bufCap → s.desc.mode = .idle →
        exec (.issueWrite f nCmd) s = .next (goto 2 { s with tx := f ++ s.tx.drop f.length }))) ∧
    (AtOp (.issueWrite f nCmd) 2 s →
      (s.cs = .high → exec (.issueWrite f nCmd) s =
        .next (goto 3 { s with cs := .low, dev := { s.dev with frame := [] } })) ∧
      (s.cs = .low → exec (.issueWrite f nCmd) s = .next (goto 3 s))) ∧
    (AtOp (.issueWrite f nCmd) 3 s →
      (∀ b, s.desc.mode = .idle → 1 ≤ nCmd → nCmd ≤ f.length → f.length ≤ s.cfg.bufCap → s.bus.state = .ready →
        s.tx[0]? = some b →
        ∃ t, exec (.teWrite nCmd (f.length - nCmd)) s = .next t ∧
          t = { s with
            desc := { mode := .sendingCommandBytes, commandByte := b, txCursor := 1, txRemaining := f.length - 1,
                      rxCursor := 0, rxRemaining := 0, cmdRemaining := nCmd - 1 }
            bus := { s.bus with state := .shifting b }
            fg := .asleep } ∧
          exec (.issueWrite f nCmd) s = .next (goto 4 t)) ∧
      (s.faults = [] → nCmd ≤ f.length → ∀ t, exec (.teWrite nCmd (f.length - nCmd)) s = .next t →
        exec (.issueWrite f nCmd) s = .next (if t.faults = [] then goto 4 t else t))) ∧
    (AtOp (.issueWrite f nCmd) 4 s →
      (s.cs = .low → s.faults = [] → ∀ t, exec .commit s = .next t →
        exec (.issueWrite f nCmd) s = .next (if t.faults = [] then goto 5 { t with cs := .high } else t)) ∧
      (s.cs = .high → exec (.issueWrite f nCmd) s = .next (goto 5 s))) ∧
    (AtOp (.issueWrite f nCmd) 5 s → exec (.issueWrite f nCmd) s = .next (returnOp (.ok .unit) s))

/-- R173: the five steps of issue_read. -/
def Obligations.IssueReadSteps : Prop :=
  ∀ (s : State) (f : List Byte) (nResp : Nat),
    (AtOp (.issueRead f nResp) 1 s →
      (s.cfg.bufCap < f.length → exec (.issueRead f nResp) s = .next (recordFault .bufferOverflow s)) ∧
      (f.length ≤ s.cfg.bufCap → s.desc.mode ≠ .idle →
        exec (.issueRead f nResp) s = .next (recordFault .bufferAccessDuringTransfer s)) ∧
      (f.length ≤ s.cfg.bufCap → s.desc.mode = .idle →
        exec (.issueRead f nResp) s = .next (goto 2 { s with tx := f ++ s.tx.drop f.length }))) ∧
    (AtOp (.issueRead f nResp) 2 s →
      (s.cs = .high → exec (.issueRead f nResp) s =
        .next (goto 3 { s with cs := .low, dev := { s.dev with frame := [] } })) ∧
      (s.cs = .low → exec (.issueRead f nResp) s = .next (goto 3 s))) ∧
    (AtOp (.issueRead f nResp) 3 s →
      (∀ b, s.desc.mode = .idle → 1 ≤ f.length → f.length ≤ s.cfg.bufCap → nResp ≤ s.cfg.bufCap →
        s.bus.state = .ready → s.tx[0]? = some b →
        ∃ t, exec (.teRead f.length nResp) s = .next t ∧
          t = { s with
            desc := { mode := .sendingCommandBytes, commandByte := b, txCursor := 1, txRemaining := f.length - 1,
                      rxCursor := 0, rxRemaining := nResp, cmdRemaining := f.length - 1 }
            bus := { s.bus with state := .shifting b }
            fg := .asleep } ∧
          exec (.issueRead f nResp) s = .next (goto 4 t)) ∧
      (s.faults = [] → ∀ t, exec (.teRead f.length nResp) s = .next t →
        exec (.issueRead f nResp) s = .next (if t.faults = [] then goto 4 t else t))) ∧
    (AtOp (.issueRead f nResp) 4 s →
      (s.cs = .low → s.faults = [] → ∀ t, exec .commit s = .next t →
        exec (.issueRead f nResp) s = .next (if t.faults = [] then goto 5 { t with cs := .high } else t)) ∧
      (s.cs = .high → exec (.issueRead f nResp) s = .next (goto 5 s))) ∧
    (AtOp (.issueRead f nResp) 5 s →
      (s.desc.mode = .idle →
        exec (.issueRead f nResp) s = .next (returnOp (.ok (.bytes (s.rx.take nResp))) s)) ∧
      (s.desc.mode ≠ .idle → exec (.issueRead f nResp) s = .next (recordFault .bufferAccessDuringTransfer s)))

/-- R175, R176: the five steps of wait_ready, with and without a bound. -/
def Obligations.WaitReadySteps : Prop :=
  ∀ (s : State),
    (AtOp .waitReady 1 s →
      exec .waitReady s = .next (goto 2 (setLocals { s.fcl.locals with polls := 0 } s))) ∧
    (AtOp .waitReady 2 s → exec .waitReady s = .next (callOp (.issueRead [s.cfg.opcStatus] 1) s)) ∧
    (∀ b l, Returned .waitReady 2 (.ok (.bytes (b :: l))) s →
      exec .waitReady s =
        .next (goto 3 (setLocals { s.fcl.locals with status := b, polls := s.fcl.locals.polls + 1 } s))) ∧
    (AtOp .waitReady 3 s →
      (isReady s.cfg s.fcl.locals.status = true →
        exec .waitReady s = .next (returnOp (.ok (.byte s.fcl.locals.status)) s)) ∧
      (isReady s.cfg s.fcl.locals.status = false → exec .waitReady s = .next (goto 4 s))) ∧
    (AtOp .waitReady 4 s →
      (∀ n, s.cfg.waitReadyBound = some n → n ≤ s.fcl.locals.polls →
        exec .waitReady s = .next (returnOp (.err .timeout) s)) ∧
      ((∀ n, s.cfg.waitReadyBound = some n → s.fcl.locals.polls < n) →
        exec .waitReady s = .next (goto 5 s))) ∧
    (AtOp .waitReady 5 s → exec .waitReady s = .next (goto 2 s))

/-- R177: the four steps of identify; the geometry is written on success only. -/
def Obligations.IdentifySteps : Prop :=
  ∀ (s : State),
    (AtOp .identify 1 s → exec .identify s = .next (callOp (.issueRead [s.cfg.opcIdentify] s.cfg.idReadLen) s)) ∧
    (∀ id, Returned .identify 1 (.ok (.bytes id)) s →
      exec .identify s = .next (goto 2 (setLocals { s.fcl.locals with id := id } s))) ∧
    (AtOp .identify 2 s → exec .identify s =
      .next (goto 3 { s with trace := s.trace ++ [.identification s.fcl.locals.id] })) ∧
    (AtOp .identify 3 s →
      (decodeIdBytes s.cfg s.fcl.locals.id = none →
        exec .identify s = .next (returnOp (.err .unrecognizedDevice) s)) ∧
      (∀ k, decodeIdBytes s.cfg s.fcl.locals.id = some k →
        exec .identify s = .next (goto 4 (setLocals { s.fcl.locals with preset := some k } s)))) ∧
    (AtOp .identify 4 s → ∀ k, s.fcl.locals.preset = some k →
      exec .identify s = .next (returnOp (.ok (.geometry s.cfg.geom[k]))
        { s with fcl := { s.fcl with geometry := some s.cfg.geom[k] } }))

/-- R178: decode_id answers the preset whose capacity code stands in byte 1's remaining bits, when the manufacturer
and the family match; none when one differs or no code matches. -/
def Obligations.DecodeIdFindsThePreset : Prop :=
  ∀ (s : State) (m b x : Byte), AtOp (.decodeId [m, b, x]) 1 s →
    (∀ k : Fin 7, (∀ j : Fin 7, s.cfg.capCode[j] = s.cfg.capCode[k] → j = k) → m = s.cfg.mfrId →
      b.toNat % 2 ^ s.cfg.familyWidth = s.cfg.familyValue → b.toNat / 2 ^ s.cfg.familyWidth = s.cfg.capCode[k] →
      exec (.decodeId [m, b, x]) s = .next (returnOp (.ok (.preset (some k))) s)) ∧
    ((m ≠ s.cfg.mfrId ∨ b.toNat % 2 ^ s.cfg.familyWidth ≠ s.cfg.familyValue ∨
        ∀ k : Fin 7, s.cfg.capCode[k] ≠ b.toNat / 2 ^ s.cfg.familyWidth) →
      exec (.decodeId [m, b, x]) s = .next (returnOp (.ok (.preset none)) s))

/-- R181: page_offset. -/
def Obligations.PageOffsetShiftsTheIndex : Prop :=
  ∀ (s : State) (p : Nat), AtOp (.pageOffset p) 1 s →
    (s.fcl.geometry = none → exec (.pageOffset p) s = .next (recordFault .geometryUnset s)) ∧
    (∀ g, s.fcl.geometry = some g →
      (g.pageCount ≤ p → exec (.pageOffset p) s = .next (recordFault .pageOutOfRange s)) ∧
      (p < g.pageCount →
        exec (.pageOffset p) s = .next (returnOp (.ok (.offset (p * 2 ^ g.pageShift))) s)))

/-- R182: the six steps of DEVICE_OP under each policy. That `phase` says how far step 5 has come is the model's choice
(log 8). -/
def Obligations.DeviceOpBracket : Prop :=
  ∀ (s : State) (body : TransferBody) (mb : Bool),
    let i := Instr.deviceOp body mb
    (AtOp i 1 s →
      (s.cfg.powerPolicy = .sleepBetweenOperations → exec i s = .next (callOp .resume s)) ∧
      (s.cfg.powerPolicy = .alwaysOn → exec i s = .next (goto 2 s))) ∧
    (∀ v, Returned i 1 (.ok v) s → exec i s = .next (goto 2 s)) ∧
    (AtOp i 2 s →
      (s.cfg.busyPolicy = .preOperation → exec i s = .next (callOp .waitReady s)) ∧
      (s.cfg.busyPolicy = .postOperation → exec i s = .next (goto 3 s))) ∧
    (∀ v, Returned i 2 (.ok v) s → exec i s = .next (goto 3 s)) ∧
    (AtOp i 3 s → exec i s = .next (callOp body.instr s)) ∧
    (∀ v, Returned i 3 (.ok v) s →
      exec i s = .next (goto 4 (setLocals { s.fcl.locals with value := v } s))) ∧
    (AtOp i 4 s →
      (s.cfg.busyPolicy = .postOperation → mb = true → exec i s = .next (callOp .waitReady s)) ∧
      ((s.cfg.busyPolicy = .preOperation ∨ mb = false) → exec i s = .next (goto 5 s))) ∧
    (∀ v, Returned i 4 (.ok v) s → exec i s = .next (goto 5 s)) ∧
    (AtOp i 5 s →
      (s.cfg.powerPolicy = .alwaysOn → exec i s = .next (goto 6 s)) ∧
      (s.cfg.powerPolicy = .sleepBetweenOperations → s.cfg.busyPolicy = .preOperation → mb = true →
        exec i s = .next (callOp .waitReady (setLocals { s.fcl.locals with phase := 1 } s))) ∧
      (s.cfg.powerPolicy = .sleepBetweenOperations → (s.cfg.busyPolicy = .postOperation ∨ mb = false) →
        exec i s = .next (callOp .powerDown (setLocals { s.fcl.locals with phase := 2 } s)))) ∧
    (∀ v, Returned i 5 (.ok v) s → s.cfg.powerPolicy = .sleepBetweenOperations →
      (s.fcl.locals.phase = 1 →
        exec i s = .next (callOp .powerDown (setLocals { s.fcl.locals with ret := none, phase := 2 } s))) ∧
      (s.fcl.locals.phase = 2 → exec i s = .next (goto 6 s))) ∧
    (AtOp i 6 s → exec i s = .next (returnOp (.ok s.fcl.locals.value) s))

/-- R183, R184: the steps of erase_page and erase_chip. An offset of more than 24 bits, which R103 says the FCL does not
encode, is refused: the model's choice (log 11). -/
def Obligations.EraseOperationSteps : Prop :=
  ∀ (s : State) (p : Nat),
    (AtOp (.erasePage p) 1 s →
      (s.fcl.geometry = none → exec (.erasePage p) s = .next (recordFault .geometryUnset s)) ∧
      (∀ g, s.fcl.geometry = some g →
        (g.pageCount ≤ p → exec (.erasePage p) s = .next (recordFault .pageOutOfRange s)) ∧
        (p < g.pageCount → p * 2 ^ g.pageShift < 2 ^ 24 →
          exec (.erasePage p) s = .next (goto 2 (setLocals { s.fcl.locals with off := p * 2 ^ g.pageShift }
            { s with trace := s.trace ++ [.pageOffset p (p * 2 ^ g.pageShift)] }))) ∧
        (p < g.pageCount → 2 ^ 24 ≤ p * 2 ^ g.pageShift →
          exec (.erasePage p) s = .refused .offsetNotEncodable))) ∧
    (AtOp (.erasePage p) 2 s → exec (.erasePage p) s =
      .next (callOp (.deviceOp (.write (s.cfg.opcPageErase :: addr3 (BitVec.ofNat 24 s.fcl.locals.off)) 4) true) s)) ∧
    (∀ v, Returned (.erasePage p) 2 (.ok v) s → exec (.erasePage p) s = .next (goto 3 s)) ∧
    (AtOp (.erasePage p) 3 s → exec (.erasePage p) s = .next (returnOp (.ok .unit) s)) ∧
    (AtOp .eraseChip 1 s →
      exec .eraseChip s = .next (goto 2 { s with trace := s.trace ++ [.chipErase] })) ∧
    (AtOp .eraseChip 2 s →
      exec .eraseChip s = .next (callOp (.deviceOp (.write s.cfg.seqChipErase.bytes 4) true) s)) ∧
    (∀ v, Returned .eraseChip 2 (.ok v) s → exec .eraseChip s = .next (goto 3 s)) ∧
    (AtOp .eraseChip 3 s → exec .eraseChip s = .next (returnOp (.ok .unit) s))

/-- R185: the steps of program_page. An offset of more than 24 bits is refused: the model's choice (log 11). -/
def Obligations.ProgramPageSteps : Prop :=
  ∀ (s : State) (p : Nat) (buffer : List Byte),
    let i := Instr.programPage p buffer
    (AtOp i 1 s →
      (s.fcl.geometry = none → exec i s = .next (recordFault .geometryUnset s)) ∧
      (∀ g, s.fcl.geometry = some g →
        (g.pageCount ≤ p → exec i s = .next (recordFault .pageOutOfRange s)) ∧
        (p < g.pageCount → buffer.length ≠ 2 ^ g.pageShift →
          exec i s = .next (recordFault .badBufferLength s)) ∧
        (p < g.pageCount → buffer.length = 2 ^ g.pageShift → p * 2 ^ g.pageShift < 2 ^ 24 →
          exec i s = .next (goto 2 (setLocals { s.fcl.locals with off := p * 2 ^ g.pageShift }
            { s with trace := s.trace ++ [.pageOffset p (p * 2 ^ g.pageShift)] }))) ∧
        (p < g.pageCount → buffer.length = 2 ^ g.pageShift → 2 ^ 24 ≤ p * 2 ^ g.pageShift →
          exec i s = .refused .offsetNotEncodable))) ∧
    (AtOp i 2 s → exec i s = .next (callOp (.deviceOp (.write
      (s.cfg.opcProgThruBuf :: (addr3 (BitVec.ofNat 24 s.fcl.locals.off) ++ buffer)) 4) true) s)) ∧
    (∀ v, Returned i 2 (.ok v) s → exec i s = .next (goto 3 s)) ∧
    (AtOp i 3 s → exec i s = .next (returnOp (.ok .unit) s))

/-- R186, R187: the steps of erase_blocks and program_blocks; unit `index` of the latter gets its slice of the
buffer. -/
def Obligations.BlockLoopSteps : Prop :=
  ∀ (s : State) (start count : Nat) (buffer : List Byte),
    let e := Instr.eraseBlocks start count
    let p := Instr.programBlocks start count buffer
    (AtOp e 1 s →
      (s.fcl.geometry = none → exec e s = .next (recordFault .geometryUnset s)) ∧
      (s.fcl.geometry ≠ none → exec e s = .next (goto 2 (setLocals { s.fcl.locals with index := 0 } s)))) ∧
    (AtOp p 1 s →
      (s.fcl.geometry = none → exec p s = .next (recordFault .geometryUnset s)) ∧
      (∀ g, s.fcl.geometry = some g →
        (buffer.length ≠ count * 2 ^ g.pageShift → exec p s = .next (recordFault .badBufferLength s)) ∧
        (buffer.length = count * 2 ^ g.pageShift →
          exec p s = .next
            (goto 2 (setLocals { s.fcl.locals with index := 0, pageSize := 2 ^ g.pageShift } s))))) ∧
    (∀ i ∈ [e, p], AtOp i 2 s →
      (s.fcl.locals.index = count → exec i s = .next (returnOp (.ok (.count count)) s)) ∧
      (s.fcl.locals.index ≠ count → exec i s = .next (goto 3 s))) ∧
    (AtOp e 3 s → exec e s = .next (callOp (.erasePage (start + s.fcl.locals.index)) s)) ∧
    (AtOp p 3 s → exec p s = .next (callOp (.programPage (start + s.fcl.locals.index)
      ((buffer.drop (s.fcl.locals.index * s.fcl.locals.pageSize)).take s.fcl.locals.pageSize)) s)) ∧
    (∀ i ∈ [e, p], ∀ v, Returned i 3 (.ok v) s →
      exec i s = .next (goto 2 (setLocals { s.fcl.locals with index := s.fcl.locals.index + 1 } s)))

/-- R188: the steps of read_bytes. -/
def Obligations.ReadBytesSteps : Prop :=
  ∀ (s : State) (off len : Nat),
    let i := Instr.readBytes off len
    (AtOp i 1 s →
      (2 ^ 24 ≤ off → exec i s = .next (recordFault .readOutOfRange s)) ∧
      (off < 2 ^ 24 → exec i s = .next (goto 2 { s with trace := s.trace ++ [.readRange off len] }))) ∧
    (AtOp i 2 s → exec i s = .next (callOp (.deviceOp
      (.read (s.cfg.opcFastRead :: (addr3 (BitVec.ofNat 24 off) ++ [s.cfg.filler])) len) false) s)) ∧
    (∀ v, Returned i 2 (.ok v) s →
      exec i s = .next (goto 3 (setLocals { s.fcl.locals with value := v } s))) ∧
    (AtOp i 3 s → exec i s = .next (returnOp (.ok s.fcl.locals.value) s))

/-- R189, R190, R191: the steps of power_down, resume and reprogram_page_size. -/
def Obligations.PowerOperationSteps : Prop :=
  ∀ (s : State),
    (AtOp .powerDown 1 s → exec .powerDown s = .next (callOp (.issueWrite [s.cfg.opcPowerDown] 1) s)) ∧
    (∀ v, Returned .powerDown 1 (.ok v) s → exec .powerDown s = .next (goto 2 s)) ∧
    (AtOp .powerDown 2 s → exec .powerDown s = .next (returnOp (.ok .unit) s)) ∧
    (AtOp .resume 1 s → exec .resume s = .next (callOp (.issueWrite [s.cfg.opcResume] 1) s)) ∧
    (∀ v, Returned .resume 1 (.ok v) s → exec .resume s = .next (goto 2 s)) ∧
    (AtOp .resume 2 s → exec .resume s = .next (goto 3 s)) ∧
    (AtOp .resume 3 s → exec .resume s = .next (returnOp (.ok .unit) s)) ∧
    (AtOp .reprogramPageSize 1 s →
      exec .reprogramPageSize s = .next (callOp (.issueWrite s.cfg.seqPow2.bytes 4) s)) ∧
    (∀ v, Returned .reprogramPageSize 1 (.ok v) s → exec .reprogramPageSize s = .next (goto 2 s)) ∧
    (AtOp .reprogramPageSize 2 s → exec .reprogramPageSize s = .next (returnOp (.ok .unit) s))

/-- R192: the seven steps of init. -/
def Obligations.InitSteps : Prop :=
  ∀ (s : State),
    (AtOp .init 1 s → s.cs = .high → exec .init s = .next (goto 2 s)) ∧
    (AtOp .init 1 s → s.cs = .low → s.faults = [] → ∀ t, exec .commit s = .next t →
      exec .init s = .next (if t.faults = [] then goto 2 { t with cs := .high } else t)) ∧
    (AtOp .init 2 s → exec .init s = .next (callOp .resume s)) ∧
    (∀ v, Returned .init 2 (.ok v) s → exec .init s = .next (goto 3 s)) ∧
    (AtOp .init 3 s → exec .init s = .next (callOp .identify s)) ∧
    (Returned .init 3 (.err .unrecognizedDevice) s → exec .init s =
      .next (returnOp (.err .unrecognizedDevice) { s with trace := s.trace ++ [.unrecognized] })) ∧
    (∀ v, Returned .init 3 (.ok v) s → exec .init s = .next (goto 4 s)) ∧
    (AtOp .init 4 s → exec .init s = .next (callOp .waitReady s)) ∧
    (∀ b, Returned .init 4 (.ok (.byte b)) s →
      exec .init s = .next (goto 5 (setLocals { s.fcl.locals with status := b } s))) ∧
    (AtOp .init 5 s →
      (isPow2 s.cfg s.fcl.locals.status = true → exec .init s = .next (goto 6 s)) ∧
      (isPow2 s.cfg s.fcl.locals.status = false → exec .init s = .next (callOp .reprogramPageSize s))) ∧
    (∀ v, Returned .init 5 (.ok v) s → isPow2 s.cfg s.fcl.locals.status = false →
      exec .init s = .next (returnOp (.err .legacyPageFormat) { s with trace := s.trace ++ [.legacyPageFormat] })) ∧
    (AtOp .init 6 s →
      (s.cfg.powerPolicy = .sleepBetweenOperations → exec .init s = .next (callOp .powerDown s)) ∧
      (s.cfg.powerPolicy = .alwaysOn → exec .init s = .next (goto 7 s))) ∧
    (∀ v, Returned .init 6 (.ok v) s → exec .init s = .next (goto 7 s)) ∧
    (AtOp .init 7 s →
      exec .init s = .next (returnOp (.ok .unit) { s with trace := s.trace ++ [.initOk] }))

/-- R176, R266: an operation to which a called operation returns `Err(Timeout)` returns it at once. -/
def Obligations.TimeoutIsReturnedAtOnce : Prop :=
  ∀ (s : State) (body : TransferBody) (mb : Bool) (p start count off len : Nat) (buffer : List Byte),
    (∀ q ∈ [(Instr.waitReady, 2), (.identify, 1), (.deviceOp body mb, 3), (.erasePage p, 2), (.eraseChip, 2),
        (.programPage p buffer, 2), (.eraseBlocks start count, 3), (.programBlocks start count buffer, 3),
        (.readBytes off len, 2), (.powerDown, 1), (.resume, 1), (.reprogramPageSize, 1), (.init, 2), (.init, 3),
        (.init, 4)],
      Returned q.1 q.2 (.err .timeout) s → exec q.1 s = .next (returnOp (.err .timeout) s)) ∧
    (Returned (.deviceOp body mb) 2 (.err .timeout) s → s.cfg.busyPolicy = .preOperation →
      exec (.deviceOp body mb) s = .next (returnOp (.err .timeout) s)) ∧
    (Returned (.deviceOp body mb) 4 (.err .timeout) s → s.cfg.busyPolicy = .postOperation → mb = true →
      exec (.deviceOp body mb) s = .next (returnOp (.err .timeout) s)) ∧
    (Returned (.deviceOp body mb) 5 (.err .timeout) s → s.cfg.powerPolicy = .sleepBetweenOperations →
      exec (.deviceOp body mb) s = .next (returnOp (.err .timeout) s))

/-! ### Whole transfers -/

/-- R154, R155, R157: a write call that starts takes exactly `n_cmd + n_data` interrupts: before that many rounds the
foreground sleeps, after them it runs and the mode is Idle; the selected device has then received exactly
`TX[0 .. n_cmd + n_data)`, and RX is unchanged. -/
def Obligations.WriteTransferDeliversTheFrame : Prop :=
  ∀ (s u : State) (nCmd nData : Nat), Inv s → s.faults = [] → s.desc.mode = .idle → s.cs = .low → 1 ≤ nCmd →
    nCmd + nData ≤ s.cfg.bufCap → exec (.teWrite nCmd nData) s = .next u →
    (∀ k, k < nCmd + nData → ∃ v, rounds k u = .next v ∧ v.fg = .asleep) ∧
    ∃ t, rounds (nCmd + nData) u = .next t ∧ t.fg = .running ∧ t.desc.mode = .idle ∧ t.faults = [] ∧
      t.dev = { s.dev with frame := s.dev.frame ++ s.tx.take (nCmd + nData) } ∧
      t.rx = s.rx ∧ t.tx = s.tx ∧ t.cs = .low ∧ t.fcl = s.fcl ∧ t.cfg = s.cfg

/-- R154, R155, R156: a read call that starts takes exactly `n_cmd + n_resp` interrupts; the selected device has then
received `TX[0 .. n_cmd) ++ FILLER^n_resp`; `RX[j]` for `j < n_resp` is the byte it returned during exchange
`n_cmd + j` (a free byte where no device is present, log 10), and every other entry of RX is unchanged. -/
def Obligations.ReadTransferCapturesTheResponse : Prop :=
  ∀ (s u : State) (nCmd nResp : Nat), Inv s → s.faults = [] → s.desc.mode = .idle → s.cs = .low →
    1 ≤ nCmd → nCmd ≤ s.cfg.bufCap → nResp ≤ s.cfg.bufCap → exec (.teRead nCmd nResp) s = .next u →
    (∀ k, k < nCmd + nResp → ∃ v, rounds k u = .next v ∧ v.fg = .asleep) ∧
    ∃ t, rounds (nCmd + nResp) u = .next t ∧ t.fg = .running ∧ t.desc.mode = .idle ∧ t.faults = [] ∧
      t.dev = { s.dev with frame := s.dev.frame ++ s.tx.take nCmd ++ List.replicate nResp s.cfg.filler } ∧
      (∀ j, j < nResp → t.rx[j]? = some
        (let free := Config.freeByte (s.draws + nCmd + j)
         if s.cfg.devPresent then deviceOutput
           { s with dev := { s.dev with frame := s.dev.frame ++ s.tx.take nCmd ++ List.replicate j s.cfg.filler } } free
         else free)) ∧
      (∀ j, nResp ≤ j → t.rx[j]? = s.rx[j]?) ∧
      t.tx = s.tx ∧ t.cs = .low ∧ t.fcl = s.fcl ∧ t.cfg = s.cfg

/-- R172, R222: one whole issue_write of a frame that decodes to `i`, from its step 1 with the device deselected, has
on the device exactly the effect of `exec i`, leaves RX and the device deselected, and returns `Ok()`. -/
def Obligations.IssueWriteHasTheFramesEffect : Prop :=
  ∀ (s u : State) (f : List Byte) (nCmd : Nat) (i : Instr), Inv s → s.faults = [] → s.cs = .high →
    s.cfg.devPresent = true → AtOp (.issueWrite f nCmd) 1 s → 1 ≤ nCmd → nCmd ≤ f.length →
    f.length ≤ s.cfg.bufCap → decode s.cfg f = .ok i → exec i s = .next u → u.faults = [] →
    ∃ t, issueWriteRun f nCmd s = .next t ∧ t.dev = u.dev ∧ t.cs = .high ∧ t.rx = s.rx ∧ t.faults = [] ∧
      t.desc.mode = .idle ∧ t.fg = .running ∧ t.trace = s.trace ∧ t.cfg = s.cfg ∧
      t.fcl = (returnOp (.ok .unit) s).fcl

/-- R173, R188, R230: one whole issue_read of the fast-read head that read_bytes builds, on an active and ready device
in power-of-two layout, returns the array's bytes at the offsets asked for and leaves the device as it was. -/
def Obligations.IssuedFastReadReturnsTheArray : Prop :=
  ∀ (s : State) (off len : Nat), Inv s → s.faults = [] → s.cs = .high → s.cfg.devPresent = true →
    s.cfg.firstBytesDistinct = true → DeviceIdle s → s.dev.format = .pow2 → off + len ≤ deviceCap s →
    off < 2 ^ 24 → 5 ≤ s.cfg.bufCap → len ≤ s.cfg.bufCap →
    AtOp (.issueRead (readFrame s.cfg off) len) 1 s →
    ∃ t, issueReadRun (readFrame s.cfg off) len s = .next t ∧ t.dev = s.dev ∧ t.cs = .high ∧ t.faults = [] ∧
      t.desc.mode = .idle ∧ t.fg = .running ∧
      t.fcl = (returnOp (.ok (.bytes (s.dev.array.readBytes off len))) s).fcl
end

