-- ==== Sys2Proof/Laws/Memory.lean ====
section
/-! SUPPORT. The device array: reading after writing, and the canonical form every memory operation keeps. -/

namespace Sys2Proof.Machine

/-! ### Reading after writing -/

theorem lookupCell_removeCell (a x : Nat) (l : List Host.Cell) :
    lookupCell x (removeCell a l) = if x = a then none else lookupCell x l := by
  induction l with
  | nil => simp [removeCell, lookupCell]
  | cons c rest ih =>
    obtain ⟨y, b⟩ := c
    by_cases hya : y = a <;> by_cases hxa : x = a <;> by_cases hyx : y = x <;>
      simp_all [removeCell, lookupCell]

theorem lookupCell_insertCell (a : Nat) (b : Byte) (x : Nat) (l : List Host.Cell) :
    lookupCell x (insertCell a b l) = if x = a then some b else lookupCell x l := by
  induction l with
  | nil => simp [insertCell, lookupCell, eq_comm (a := a)]
  | cons c rest ih =>
    obtain ⟨y, v⟩ := c
    by_cases h1 : a < y
    · simp [insertCell, lookupCell, h1, eq_comm (a := a)]
    · by_cases h2 : y = a
      · subst h2
        by_cases hxa : x = y <;> simp [insertCell, lookupCell, hxa, eq_comm (a := y)]
      · by_cases hyx : y = x
        · subst hyx
          simp [insertCell, lookupCell, h1, h2]
        · simp [insertCell, lookupCell, h1, h2, hyx, ih]

theorem byteAt_of_known {g : Background} {b : Byte} (h : g.known = some b) (a : Nat) : g.byteAt a = b := by
  cases g <;> simp_all [Background.known, Background.byteAt]

@[simp] theorem Memory.write_background (m : Memory) (a : Nat) (b : Byte) :
    (m.write a b).background = m.background := by
  unfold Memory.write; split <;> rfl

/-- A read after a write: the value written at its offset, the old value elsewhere. -/
theorem Memory.read_write (m : Memory) (a : Nat) (b : Byte) (x : Nat) :
    (m.write a b).read x = if x = a then b else m.read x := by
  by_cases h : m.background.known = some b
  · by_cases hx : x = a
    · simp [Memory.read, Memory.write, h, lookupCell_removeCell, hx, byteAt_of_known h]
    · simp [Memory.read, Memory.write, h, lookupCell_removeCell, hx]
  · by_cases hx : x = a <;> simp [Memory.read, Memory.write, h, lookupCell_insertCell, hx]

/-- A read after a write of consecutive bytes: the written byte inside the range, the old value outside it. -/
theorem Memory.read_writeBytes (m : Memory) (a : Nat) (l : List Byte) (x : Nat) :
    (m.writeBytes a l).read x = if a ≤ x then (l[x - a]?).getD (m.read x) else m.read x := by
  induction l generalizing m a with
  | nil => simp [Memory.writeBytes]
  | cons b rest ih =>
    rw [Memory.writeBytes, ih, Memory.read_write]
    by_cases h1 : a + 1 ≤ x
    · have h2 : x ≠ a := by omega
      have h3 : x - a = (x - (a + 1)) + 1 := by omega
      simp [h1, h2, Nat.le_of_succ_le h1, h3]
    · by_cases h2 : x = a
      · subst h2; simp
      · have : ¬ a ≤ x := by omega
        simp [h1, h2, this]

theorem Memory.read_eraseRange (m : Memory) (a n x : Nat) :
    (m.eraseRange a n).read x = if a ≤ x ∧ x < a + n then 0xFF else m.read x := by
  rw [Memory.eraseRange, Memory.read_writeBytes]
  by_cases h1 : a ≤ x
  · by_cases h2 : x < a + n
    · have : x - a < n := by omega
      simp [h1, h2, this]
    · have : ¬ x - a < n := by omega
      simp [h1, h2, this]
  · simp [h1]

@[simp] theorem Memory.read_allErased (x : Nat) : Memory.allErased.read x = 0xFF := rfl

@[simp] theorem Memory.readBytes_length (m : Memory) (a n : Nat) : (m.readBytes a n).length = n := by
  simp [Memory.readBytes]

theorem Memory.readBytes_getElem? (m : Memory) (a n j : Nat) (h : j < n) :
    (m.readBytes a n)[j]? = some (m.read (a + j)) := by
  simp [Memory.readBytes, h]

/-! ### The canonical form -/

theorem mem_removeCell {a : Nat} {c : Host.Cell} {l : List Host.Cell} (h : c ∈ removeCell a l) : c ∈ l := by
  induction l with
  | nil => simp [removeCell] at h
  | cons d rest ih =>
    obtain ⟨y, v⟩ := d
    by_cases hy : y = a <;> simp [removeCell, hy] at h ⊢
    · exact .inr (ih h)
    · rcases h with h | h
      · exact .inl h
      · exact .inr (ih h)

theorem mem_insertCell {a : Nat} {b : Byte} {c : Host.Cell} {l : List Host.Cell} (h : c ∈ insertCell a b l) :
    c = (a, b) ∨ c ∈ l := by
  induction l with
  | nil => simpa [insertCell] using h
  | cons d rest ih =>
    obtain ⟨y, v⟩ := d
    by_cases h1 : a < y
    · simpa [insertCell, h1] using h
    · by_cases h2 : y = a
      · simp only [insertCell, h2, lt_irrefl, if_false, if_true, List.mem_cons] at h
        rcases h with h | h
        · exact .inl h
        · exact .inr (List.mem_cons_of_mem _ h)
      · simp only [insertCell, h1, h2, if_false, List.mem_cons] at h
        rcases h with h | h
        · exact .inr (by simp [h])
        · rcases ih h with h | h
          · exact .inl h
          · exact .inr (List.mem_cons_of_mem _ h)

theorem pairwise_removeCell {a : Nat} {l : List Host.Cell} (h : l.Pairwise (fun x y => x.1 < y.1)) :
    (removeCell a l).Pairwise (fun x y => x.1 < y.1) := by
  induction l with
  | nil => simp [removeCell]
  | cons d rest ih =>
    obtain ⟨y, v⟩ := d
    rw [List.pairwise_cons] at h
    by_cases hy : y = a
    · simpa [removeCell, hy] using ih h.2
    · simp only [removeCell, hy, if_false, List.pairwise_cons]
      exact ⟨fun c hc => h.1 c (mem_removeCell hc), ih h.2⟩

theorem pairwise_insertCell {a : Nat} {b : Byte} {l : List Host.Cell} (h : l.Pairwise (fun x y => x.1 < y.1)) :
    (insertCell a b l).Pairwise (fun x y => x.1 < y.1) := by
  induction l with
  | nil => simp [insertCell]
  | cons d rest ih =>
    obtain ⟨y, v⟩ := d
    have h' := List.pairwise_cons.1 h
    by_cases h1 : a < y
    · simp only [insertCell, h1, if_true, List.pairwise_cons]
      refine ⟨fun c hc => ?_, h'⟩
      rcases List.mem_cons.1 hc with rfl | hc
      · exact h1
      · exact lt_trans h1 (h'.1 c hc)
    · by_cases h2 : y = a
      · subst h2
        simp only [insertCell, lt_irrefl, if_false, if_true, List.pairwise_cons]
        exact h'
      · simp only [insertCell, h1, h2, if_false, List.pairwise_cons]
        refine ⟨fun c hc => ?_, ih h'.2⟩
        rcases mem_insertCell hc with rfl | hc
        · show y < a
          omega
        · exact h'.1 c hc

/-- A write inside the array keeps the canonical form. -/
theorem Memory.wf_write {cap : Nat} {m : Memory} (h : m.wf cap) {a : Nat} (ha : a < cap) (b : Byte) :
    (m.write a b).wf cap := by
  by_cases hk : m.background.known = some b
  · simp only [Memory.write, hk, if_true]
    exact ⟨pairwise_removeCell h.1, fun c hc => by simpa [hk] using h.2 c (mem_removeCell hc)⟩
  · simp only [Memory.write, hk, if_false]
    refine ⟨pairwise_insertCell h.1, fun c hc => ?_⟩
    rcases mem_insertCell hc with rfl | hc
    · exact ⟨ha, hk⟩
    · exact h.2 c hc

/-- Consecutive writes inside the array keep the canonical form. -/
theorem Memory.wf_writeBytes {cap : Nat} {m : Memory} (h : m.wf cap) {a : Nat} {l : List Byte}
    (ha : a + l.length ≤ cap) : (m.writeBytes a l).wf cap := by
  induction l generalizing m a with
  | nil => exact h
  | cons b rest ih =>
    simp only [List.length_cons] at ha
    exact ih (Memory.wf_write h (by omega) b) (by omega)

theorem Memory.wf_eraseRange {cap : Nat} {m : Memory} (h : m.wf cap) {a n : Nat} (ha : a + n ≤ cap) :
    (m.eraseRange a n).wf cap :=
  Memory.wf_writeBytes h (by simpa using ha)

/-- A freshly laid background is in canonical form. -/
theorem Memory.wf_fresh (cap : Nat) (g : Background) : Memory.wf cap ⟨g, []⟩ := by simp [Memory.wf]

theorem Memory.wf_allErased (cap : Nat) : Memory.allErased.wf cap := Memory.wf_fresh cap .erased

/-- The array at reset is in canonical form. -/
theorem State.resetAt_array_wf (c : Config) : (State.resetAt c).dev.array.wf c.devGeom.capacity :=
  Memory.wf_fresh _ _

end Sys2Proof.Machine
end

