-- ==== Sys2Proof/Laws/State.lean ====
section
/-! SUPPORT. What each named update of the state does to each field: one small lemma per field, so that no later proof
unfolds a record update. -/

namespace Sys2Proof.Machine

/-! ### recordFault -/

@[simp] theorem recordFault_cfg (f : FaultName) (s : State) : (recordFault f s).cfg = s.cfg := by
  unfold recordFault; split <;> rfl
@[simp] theorem recordFault_desc (f : FaultName) (s : State) : (recordFault f s).desc = s.desc := by
  unfold recordFault; split <;> rfl
@[simp] theorem recordFault_tx (f : FaultName) (s : State) : (recordFault f s).tx = s.tx := by
  unfold recordFault; split <;> rfl
@[simp] theorem recordFault_rx (f : FaultName) (s : State) : (recordFault f s).rx = s.rx := by
  unfold recordFault; split <;> rfl
@[simp] theorem recordFault_fg (f : FaultName) (s : State) : (recordFault f s).fg = s.fg := by
  unfold recordFault; split <;> rfl
@[simp] theorem recordFault_bus (f : FaultName) (s : State) : (recordFault f s).bus = s.bus := by
  unfold recordFault; split <;> rfl
@[simp] theorem recordFault_cs (f : FaultName) (s : State) : (recordFault f s).cs = s.cs := by
  unfold recordFault; split <;> rfl
@[simp] theorem recordFault_fcl (f : FaultName) (s : State) : (recordFault f s).fcl = s.fcl := by
  unfold recordFault; split <;> rfl
@[simp] theorem recordFault_dev (f : FaultName) (s : State) : (recordFault f s).dev = s.dev := by
  unfold recordFault; split <;> rfl
@[simp] theorem recordFault_trace (f : FaultName) (s : State) : (recordFault f s).trace = s.trace := by
  unfold recordFault; split <;> rfl
@[simp] theorem recordFault_env (f : FaultName) (s : State) : (recordFault f s).env = s.env := by
  unfold recordFault; split <;> rfl
@[simp] theorem recordFault_calls (f : FaultName) (s : State) : (recordFault f s).calls = s.calls := by
  unfold recordFault; split <;> rfl
@[simp] theorem recordFault_draws (f : FaultName) (s : State) : (recordFault f s).draws = s.draws := by
  unfold recordFault; split <;> rfl

/-! ### sleep -/

@[simp] theorem sleep_cfg (s : State) : (sleep s).cfg = s.cfg := rfl
@[simp] theorem sleep_desc (s : State) : (sleep s).desc = s.desc := rfl
@[simp] theorem sleep_tx (s : State) : (sleep s).tx = s.tx := rfl
@[simp] theorem sleep_rx (s : State) : (sleep s).rx = s.rx := rfl
@[simp] theorem sleep_bus (s : State) : (sleep s).bus = s.bus := rfl
@[simp] theorem sleep_cs (s : State) : (sleep s).cs = s.cs := rfl
@[simp] theorem sleep_fcl (s : State) : (sleep s).fcl = s.fcl := rfl
@[simp] theorem sleep_dev (s : State) : (sleep s).dev = s.dev := rfl
@[simp] theorem sleep_trace (s : State) : (sleep s).trace = s.trace := rfl
@[simp] theorem sleep_faults (s : State) : (sleep s).faults = s.faults := rfl
@[simp] theorem sleep_env (s : State) : (sleep s).env = s.env := rfl
@[simp] theorem sleep_calls (s : State) : (sleep s).calls = s.calls := rfl
@[simp] theorem sleep_draws (s : State) : (sleep s).draws = s.draws := rfl

/-! ### wake -/

@[simp] theorem wake_cfg (s : State) : (wake s).cfg = s.cfg := rfl
@[simp] theorem wake_desc (s : State) : (wake s).desc = s.desc := rfl
@[simp] theorem wake_tx (s : State) : (wake s).tx = s.tx := rfl
@[simp] theorem wake_rx (s : State) : (wake s).rx = s.rx := rfl
@[simp] theorem wake_bus (s : State) : (wake s).bus = s.bus := rfl
@[simp] theorem wake_cs (s : State) : (wake s).cs = s.cs := rfl
@[simp] theorem wake_fcl (s : State) : (wake s).fcl = s.fcl := rfl
@[simp] theorem wake_dev (s : State) : (wake s).dev = s.dev := rfl
@[simp] theorem wake_trace (s : State) : (wake s).trace = s.trace := rfl
@[simp] theorem wake_faults (s : State) : (wake s).faults = s.faults := rfl
@[simp] theorem wake_env (s : State) : (wake s).env = s.env := rfl
@[simp] theorem wake_calls (s : State) : (wake s).calls = s.calls := rfl
@[simp] theorem wake_draws (s : State) : (wake s).draws = s.draws := rfl

/-! ### handlerEntry -/

@[simp] theorem handlerEntry_cfg (s : State) : (handlerEntry s).cfg = s.cfg := rfl
@[simp] theorem handlerEntry_desc (s : State) : (handlerEntry s).desc = s.desc := rfl
@[simp] theorem handlerEntry_tx (s : State) : (handlerEntry s).tx = s.tx := rfl
@[simp] theorem handlerEntry_rx (s : State) : (handlerEntry s).rx = s.rx := rfl
@[simp] theorem handlerEntry_fg (s : State) : (handlerEntry s).fg = s.fg := rfl
@[simp] theorem handlerEntry_cs (s : State) : (handlerEntry s).cs = s.cs := rfl
@[simp] theorem handlerEntry_fcl (s : State) : (handlerEntry s).fcl = s.fcl := rfl
@[simp] theorem handlerEntry_dev (s : State) : (handlerEntry s).dev = s.dev := rfl
@[simp] theorem handlerEntry_trace (s : State) : (handlerEntry s).trace = s.trace := rfl
@[simp] theorem handlerEntry_faults (s : State) : (handlerEntry s).faults = s.faults := rfl
@[simp] theorem handlerEntry_env (s : State) : (handlerEntry s).env = s.env := rfl
@[simp] theorem handlerEntry_calls (s : State) : (handlerEntry s).calls = s.calls := rfl
@[simp] theorem handlerEntry_draws (s : State) : (handlerEntry s).draws = s.draws := rfl

/-! ### finishTransfer -/

@[simp] theorem finishTransfer_cfg (s : State) : (finishTransfer s).cfg = s.cfg := rfl
@[simp] theorem finishTransfer_tx (s : State) : (finishTransfer s).tx = s.tx := rfl
@[simp] theorem finishTransfer_rx (s : State) : (finishTransfer s).rx = s.rx := rfl
@[simp] theorem finishTransfer_bus (s : State) : (finishTransfer s).bus = s.bus := rfl
@[simp] theorem finishTransfer_cs (s : State) : (finishTransfer s).cs = s.cs := rfl
@[simp] theorem finishTransfer_fcl (s : State) : (finishTransfer s).fcl = s.fcl := rfl
@[simp] theorem finishTransfer_dev (s : State) : (finishTransfer s).dev = s.dev := rfl
@[simp] theorem finishTransfer_trace (s : State) : (finishTransfer s).trace = s.trace := rfl
@[simp] theorem finishTransfer_faults (s : State) : (finishTransfer s).faults = s.faults := rfl
@[simp] theorem finishTransfer_env (s : State) : (finishTransfer s).env = s.env := rfl
@[simp] theorem finishTransfer_calls (s : State) : (finishTransfer s).calls = s.calls := rfl
@[simp] theorem finishTransfer_draws (s : State) : (finishTransfer s).draws = s.draws := rfl

/-! ### fillTx -/

@[simp] theorem fillTx_cfg (l : List Byte) (s : State) : (fillTx l s).cfg = s.cfg := rfl
@[simp] theorem fillTx_desc (l : List Byte) (s : State) : (fillTx l s).desc = s.desc := rfl
@[simp] theorem fillTx_rx (l : List Byte) (s : State) : (fillTx l s).rx = s.rx := rfl
@[simp] theorem fillTx_fg (l : List Byte) (s : State) : (fillTx l s).fg = s.fg := rfl
@[simp] theorem fillTx_bus (l : List Byte) (s : State) : (fillTx l s).bus = s.bus := rfl
@[simp] theorem fillTx_cs (l : List Byte) (s : State) : (fillTx l s).cs = s.cs := rfl
@[simp] theorem fillTx_fcl (l : List Byte) (s : State) : (fillTx l s).fcl = s.fcl := rfl
@[simp] theorem fillTx_dev (l : List Byte) (s : State) : (fillTx l s).dev = s.dev := rfl
@[simp] theorem fillTx_trace (l : List Byte) (s : State) : (fillTx l s).trace = s.trace := rfl
@[simp] theorem fillTx_faults (l : List Byte) (s : State) : (fillTx l s).faults = s.faults := rfl
@[simp] theorem fillTx_env (l : List Byte) (s : State) : (fillTx l s).env = s.env := rfl
@[simp] theorem fillTx_calls (l : List Byte) (s : State) : (fillTx l s).calls = s.calls := rfl
@[simp] theorem fillTx_draws (l : List Byte) (s : State) : (fillTx l s).draws = s.draws := rfl

/-! ### selectDevice -/

@[simp] theorem selectDevice_cfg (s : State) : (selectDevice s).cfg = s.cfg := by
  unfold selectDevice; split <;> rfl
@[simp] theorem selectDevice_desc (s : State) : (selectDevice s).desc = s.desc := by
  unfold selectDevice; split <;> rfl
@[simp] theorem selectDevice_tx (s : State) : (selectDevice s).tx = s.tx := by
  unfold selectDevice; split <;> rfl
@[simp] theorem selectDevice_rx (s : State) : (selectDevice s).rx = s.rx := by
  unfold selectDevice; split <;> rfl
@[simp] theorem selectDevice_fg (s : State) : (selectDevice s).fg = s.fg := by
  unfold selectDevice; split <;> rfl
@[simp] theorem selectDevice_bus (s : State) : (selectDevice s).bus = s.bus := by
  unfold selectDevice; split <;> rfl
@[simp] theorem selectDevice_fcl (s : State) : (selectDevice s).fcl = s.fcl := by
  unfold selectDevice; split <;> rfl
@[simp] theorem selectDevice_trace (s : State) : (selectDevice s).trace = s.trace := by
  unfold selectDevice; split <;> rfl
@[simp] theorem selectDevice_faults (s : State) : (selectDevice s).faults = s.faults := by
  unfold selectDevice; split <;> rfl
@[simp] theorem selectDevice_env (s : State) : (selectDevice s).env = s.env := by
  unfold selectDevice; split <;> rfl
@[simp] theorem selectDevice_calls (s : State) : (selectDevice s).calls = s.calls := by
  unfold selectDevice; split <;> rfl
@[simp] theorem selectDevice_draws (s : State) : (selectDevice s).draws = s.draws := by
  unfold selectDevice; split <;> rfl

/-! ### startOp -/

@[simp] theorem startOp_cfg (i : Instr) (s : State) : (startOp i s).cfg = s.cfg := rfl
@[simp] theorem startOp_desc (i : Instr) (s : State) : (startOp i s).desc = s.desc := rfl
@[simp] theorem startOp_tx (i : Instr) (s : State) : (startOp i s).tx = s.tx := rfl
@[simp] theorem startOp_rx (i : Instr) (s : State) : (startOp i s).rx = s.rx := rfl
@[simp] theorem startOp_fg (i : Instr) (s : State) : (startOp i s).fg = s.fg := rfl
@[simp] theorem startOp_bus (i : Instr) (s : State) : (startOp i s).bus = s.bus := rfl
@[simp] theorem startOp_cs (i : Instr) (s : State) : (startOp i s).cs = s.cs := rfl
@[simp] theorem startOp_dev (i : Instr) (s : State) : (startOp i s).dev = s.dev := rfl
@[simp] theorem startOp_trace (i : Instr) (s : State) : (startOp i s).trace = s.trace := rfl
@[simp] theorem startOp_faults (i : Instr) (s : State) : (startOp i s).faults = s.faults := rfl
@[simp] theorem startOp_env (i : Instr) (s : State) : (startOp i s).env = s.env := rfl
@[simp] theorem startOp_calls (i : Instr) (s : State) : (startOp i s).calls = s.calls := rfl
@[simp] theorem startOp_draws (i : Instr) (s : State) : (startOp i s).draws = s.draws := rfl

/-! ### goto -/

@[simp] theorem goto_cfg (n : Nat) (s : State) : (goto n s).cfg = s.cfg := rfl
@[simp] theorem goto_desc (n : Nat) (s : State) : (goto n s).desc = s.desc := rfl
@[simp] theorem goto_tx (n : Nat) (s : State) : (goto n s).tx = s.tx := rfl
@[simp] theorem goto_rx (n : Nat) (s : State) : (goto n s).rx = s.rx := rfl
@[simp] theorem goto_fg (n : Nat) (s : State) : (goto n s).fg = s.fg := rfl
@[simp] theorem goto_bus (n : Nat) (s : State) : (goto n s).bus = s.bus := rfl
@[simp] theorem goto_cs (n : Nat) (s : State) : (goto n s).cs = s.cs := rfl
@[simp] theorem goto_dev (n : Nat) (s : State) : (goto n s).dev = s.dev := rfl
@[simp] theorem goto_trace (n : Nat) (s : State) : (goto n s).trace = s.trace := rfl
@[simp] theorem goto_faults (n : Nat) (s : State) : (goto n s).faults = s.faults := rfl
@[simp] theorem goto_env (n : Nat) (s : State) : (goto n s).env = s.env := rfl
@[simp] theorem goto_calls (n : Nat) (s : State) : (goto n s).calls = s.calls := rfl
@[simp] theorem goto_draws (n : Nat) (s : State) : (goto n s).draws = s.draws := rfl

/-! ### callOp -/

@[simp] theorem callOp_cfg (i : Instr) (s : State) : (callOp i s).cfg = s.cfg := by
  unfold callOp; split <;> rfl
@[simp] theorem callOp_desc (i : Instr) (s : State) : (callOp i s).desc = s.desc := by
  unfold callOp; split <;> rfl
@[simp] theorem callOp_tx (i : Instr) (s : State) : (callOp i s).tx = s.tx := by
  unfold callOp; split <;> rfl
@[simp] theorem callOp_rx (i : Instr) (s : State) : (callOp i s).rx = s.rx := by
  unfold callOp; split <;> rfl
@[simp] theorem callOp_fg (i : Instr) (s : State) : (callOp i s).fg = s.fg := by
  unfold callOp; split <;> rfl
@[simp] theorem callOp_bus (i : Instr) (s : State) : (callOp i s).bus = s.bus := by
  unfold callOp; split <;> rfl
@[simp] theorem callOp_cs (i : Instr) (s : State) : (callOp i s).cs = s.cs := by
  unfold callOp; split <;> rfl
@[simp] theorem callOp_dev (i : Instr) (s : State) : (callOp i s).dev = s.dev := by
  unfold callOp; split <;> rfl
@[simp] theorem callOp_trace (i : Instr) (s : State) : (callOp i s).trace = s.trace := by
  unfold callOp; split <;> rfl
@[simp] theorem callOp_faults (i : Instr) (s : State) : (callOp i s).faults = s.faults := by
  unfold callOp; split <;> rfl
@[simp] theorem callOp_env (i : Instr) (s : State) : (callOp i s).env = s.env := by
  unfold callOp; split <;> rfl
@[simp] theorem callOp_calls (i : Instr) (s : State) : (callOp i s).calls = s.calls := by
  unfold callOp; split <;> rfl
@[simp] theorem callOp_draws (i : Instr) (s : State) : (callOp i s).draws = s.draws := by
  unfold callOp; split <;> rfl

/-! ### returnOp -/

@[simp] theorem returnOp_cfg (r : Result) (s : State) : (returnOp r s).cfg = s.cfg := by
  unfold returnOp; split <;> rfl
@[simp] theorem returnOp_desc (r : Result) (s : State) : (returnOp r s).desc = s.desc := by
  unfold returnOp; split <;> rfl
@[simp] theorem returnOp_tx (r : Result) (s : State) : (returnOp r s).tx = s.tx := by
  unfold returnOp; split <;> rfl
@[simp] theorem returnOp_rx (r : Result) (s : State) : (returnOp r s).rx = s.rx := by
  unfold returnOp; split <;> rfl
@[simp] theorem returnOp_fg (r : Result) (s : State) : (returnOp r s).fg = s.fg := by
  unfold returnOp; split <;> rfl
@[simp] theorem returnOp_bus (r : Result) (s : State) : (returnOp r s).bus = s.bus := by
  unfold returnOp; split <;> rfl
@[simp] theorem returnOp_cs (r : Result) (s : State) : (returnOp r s).cs = s.cs := by
  unfold returnOp; split <;> rfl
@[simp] theorem returnOp_dev (r : Result) (s : State) : (returnOp r s).dev = s.dev := by
  unfold returnOp; split <;> rfl
@[simp] theorem returnOp_trace (r : Result) (s : State) : (returnOp r s).trace = s.trace := by
  unfold returnOp; split <;> rfl
@[simp] theorem returnOp_faults (r : Result) (s : State) : (returnOp r s).faults = s.faults := by
  unfold returnOp; split <;> rfl
@[simp] theorem returnOp_env (r : Result) (s : State) : (returnOp r s).env = s.env := by
  unfold returnOp; split <;> rfl
@[simp] theorem returnOp_calls (r : Result) (s : State) : (returnOp r s).calls = s.calls := by
  unfold returnOp; split <;> rfl
@[simp] theorem returnOp_draws (r : Result) (s : State) : (returnOp r s).draws = s.draws := by
  unfold returnOp; split <;> rfl

/-! ### setLocals -/

@[simp] theorem setLocals_cfg (l : Locals) (s : State) : (setLocals l s).cfg = s.cfg := rfl
@[simp] theorem setLocals_desc (l : Locals) (s : State) : (setLocals l s).desc = s.desc := rfl
@[simp] theorem setLocals_tx (l : Locals) (s : State) : (setLocals l s).tx = s.tx := rfl
@[simp] theorem setLocals_rx (l : Locals) (s : State) : (setLocals l s).rx = s.rx := rfl
@[simp] theorem setLocals_fg (l : Locals) (s : State) : (setLocals l s).fg = s.fg := rfl
@[simp] theorem setLocals_bus (l : Locals) (s : State) : (setLocals l s).bus = s.bus := rfl
@[simp] theorem setLocals_cs (l : Locals) (s : State) : (setLocals l s).cs = s.cs := rfl
@[simp] theorem setLocals_dev (l : Locals) (s : State) : (setLocals l s).dev = s.dev := rfl
@[simp] theorem setLocals_trace (l : Locals) (s : State) : (setLocals l s).trace = s.trace := rfl
@[simp] theorem setLocals_faults (l : Locals) (s : State) : (setLocals l s).faults = s.faults := rfl
@[simp] theorem setLocals_env (l : Locals) (s : State) : (setLocals l s).env = s.env := rfl
@[simp] theorem setLocals_calls (l : Locals) (s : State) : (setLocals l s).calls = s.calls := rfl
@[simp] theorem setLocals_draws (l : Locals) (s : State) : (setLocals l s).draws = s.draws := rfl

/-! ### emit -/

@[simp] theorem emit_cfg (r : TraceRecord) (s : State) : (emit r s).cfg = s.cfg := rfl
@[simp] theorem emit_desc (r : TraceRecord) (s : State) : (emit r s).desc = s.desc := rfl
@[simp] theorem emit_tx (r : TraceRecord) (s : State) : (emit r s).tx = s.tx := rfl
@[simp] theorem emit_rx (r : TraceRecord) (s : State) : (emit r s).rx = s.rx := rfl
@[simp] theorem emit_fg (r : TraceRecord) (s : State) : (emit r s).fg = s.fg := rfl
@[simp] theorem emit_bus (r : TraceRecord) (s : State) : (emit r s).bus = s.bus := rfl
@[simp] theorem emit_cs (r : TraceRecord) (s : State) : (emit r s).cs = s.cs := rfl
@[simp] theorem emit_fcl (r : TraceRecord) (s : State) : (emit r s).fcl = s.fcl := rfl
@[simp] theorem emit_dev (r : TraceRecord) (s : State) : (emit r s).dev = s.dev := rfl
@[simp] theorem emit_faults (r : TraceRecord) (s : State) : (emit r s).faults = s.faults := rfl
@[simp] theorem emit_env (r : TraceRecord) (s : State) : (emit r s).env = s.env := rfl
@[simp] theorem emit_calls (r : TraceRecord) (s : State) : (emit r s).calls = s.calls := rfl
@[simp] theorem emit_draws (r : TraceRecord) (s : State) : (emit r s).draws = s.draws := rfl

/-! ### writeArrayBusy -/

@[simp] theorem writeArrayBusy_cfg (m : Memory) (s : State) : (writeArrayBusy m s).cfg = s.cfg := rfl
@[simp] theorem writeArrayBusy_desc (m : Memory) (s : State) : (writeArrayBusy m s).desc = s.desc := rfl
@[simp] theorem writeArrayBusy_tx (m : Memory) (s : State) : (writeArrayBusy m s).tx = s.tx := rfl
@[simp] theorem writeArrayBusy_rx (m : Memory) (s : State) : (writeArrayBusy m s).rx = s.rx := rfl
@[simp] theorem writeArrayBusy_fg (m : Memory) (s : State) : (writeArrayBusy m s).fg = s.fg := rfl
@[simp] theorem writeArrayBusy_bus (m : Memory) (s : State) : (writeArrayBusy m s).bus = s.bus := rfl
@[simp] theorem writeArrayBusy_cs (m : Memory) (s : State) : (writeArrayBusy m s).cs = s.cs := rfl
@[simp] theorem writeArrayBusy_fcl (m : Memory) (s : State) : (writeArrayBusy m s).fcl = s.fcl := rfl
@[simp] theorem writeArrayBusy_trace (m : Memory) (s : State) : (writeArrayBusy m s).trace = s.trace := rfl
@[simp] theorem writeArrayBusy_faults (m : Memory) (s : State) : (writeArrayBusy m s).faults = s.faults := rfl
@[simp] theorem writeArrayBusy_env (m : Memory) (s : State) : (writeArrayBusy m s).env = s.env := rfl
@[simp] theorem writeArrayBusy_calls (m : Memory) (s : State) : (writeArrayBusy m s).calls = s.calls := rfl
@[simp] theorem writeArrayBusy_draws (m : Memory) (s : State) : (writeArrayBusy m s).draws = s.draws := rfl

/-! ### clearFrame -/

@[simp] theorem clearFrame_cfg (s : State) : (clearFrame s).cfg = s.cfg := rfl
@[simp] theorem clearFrame_desc (s : State) : (clearFrame s).desc = s.desc := rfl
@[simp] theorem clearFrame_tx (s : State) : (clearFrame s).tx = s.tx := rfl
@[simp] theorem clearFrame_rx (s : State) : (clearFrame s).rx = s.rx := rfl
@[simp] theorem clearFrame_fg (s : State) : (clearFrame s).fg = s.fg := rfl
@[simp] theorem clearFrame_bus (s : State) : (clearFrame s).bus = s.bus := rfl
@[simp] theorem clearFrame_cs (s : State) : (clearFrame s).cs = s.cs := rfl
@[simp] theorem clearFrame_fcl (s : State) : (clearFrame s).fcl = s.fcl := rfl
@[simp] theorem clearFrame_trace (s : State) : (clearFrame s).trace = s.trace := rfl
@[simp] theorem clearFrame_faults (s : State) : (clearFrame s).faults = s.faults := rfl
@[simp] theorem clearFrame_env (s : State) : (clearFrame s).env = s.env := rfl
@[simp] theorem clearFrame_calls (s : State) : (clearFrame s).calls = s.calls := rfl
@[simp] theorem clearFrame_draws (s : State) : (clearFrame s).draws = s.draws := rfl

/-! ### consumeMove -/

@[simp] theorem consumeMove_cfg (s : State) : (consumeMove s).cfg = s.cfg := rfl
@[simp] theorem consumeMove_desc (s : State) : (consumeMove s).desc = s.desc := rfl
@[simp] theorem consumeMove_tx (s : State) : (consumeMove s).tx = s.tx := rfl
@[simp] theorem consumeMove_rx (s : State) : (consumeMove s).rx = s.rx := rfl
@[simp] theorem consumeMove_fg (s : State) : (consumeMove s).fg = s.fg := rfl
@[simp] theorem consumeMove_bus (s : State) : (consumeMove s).bus = s.bus := rfl
@[simp] theorem consumeMove_cs (s : State) : (consumeMove s).cs = s.cs := rfl
@[simp] theorem consumeMove_fcl (s : State) : (consumeMove s).fcl = s.fcl := rfl
@[simp] theorem consumeMove_dev (s : State) : (consumeMove s).dev = s.dev := rfl
@[simp] theorem consumeMove_trace (s : State) : (consumeMove s).trace = s.trace := rfl
@[simp] theorem consumeMove_faults (s : State) : (consumeMove s).faults = s.faults := rfl
@[simp] theorem consumeMove_calls (s : State) : (consumeMove s).calls = s.calls := rfl
@[simp] theorem consumeMove_draws (s : State) : (consumeMove s).draws = s.draws := rfl

/-! ### What each update writes -/

@[simp] theorem sleep_fg (s : State) : (sleep s).fg = .asleep := rfl
@[simp] theorem wake_fg (s : State) : (wake s).fg = .running := rfl
@[simp] theorem handlerEntry_bus (s : State) : (handlerEntry s).bus = { s.bus with irqPending := false } := rfl
@[simp] theorem finishTransfer_desc (s : State) : (finishTransfer s).desc = { s.desc with mode := .idle } := rfl
@[simp] theorem finishTransfer_fg (s : State) : (finishTransfer s).fg = .running := rfl
@[simp] theorem fillTx_tx (l : List Byte) (s : State) : (fillTx l s).tx = l ++ s.tx.drop l.length := rfl
@[simp] theorem selectDevice_cs (s : State) : (selectDevice s).cs = .low := by
  unfold selectDevice; split <;> simp_all
@[simp] theorem emit_trace (r : TraceRecord) (s : State) : (emit r s).trace = s.trace ++ [r] := rfl
@[simp] theorem consumeMove_env (s : State) : (consumeMove s).env = s.env.tail := rfl
@[simp] theorem delay_eq (t : Nat) (s : State) : delay t s = s := rfl
@[simp] theorem writeArrayBusy_dev (m : Memory) (s : State) :
    (writeArrayBusy m s).dev = { s.dev with array := m, busy := true } := rfl
@[simp] theorem clearFrame_dev (s : State) : (clearFrame s).dev = { s.dev with frame := [] } := rfl
theorem selectDevice_dev_high {s : State} (h : s.cs = .high) :
    (selectDevice s).dev = { s.dev with frame := [] } := by simp [selectDevice, h]
theorem selectDevice_dev_low {s : State} (h : s.cs = .low) : (selectDevice s).dev = s.dev := by
  simp [selectDevice, h]

/-! ### FCL control -/

@[simp] theorem startOp_fcl (i : Instr) (s : State) :
    (startOp i s).fcl = { s.fcl with pc := some ⟨i, 1⟩, locals := {} } := rfl
@[simp] theorem setLocals_fcl (l : Locals) (s : State) : (setLocals l s).fcl = { s.fcl with locals := l } := rfl
theorem goto_fcl {n : Nat} {s : State} {pc : Pc} (h : s.fcl.pc = some pc) :
    (goto n s).fcl =
      { s.fcl with pc := some { pc with step := n }, locals := { s.fcl.locals with ret := none } } := by
  simp [goto, h]
theorem callOp_fcl {i : Instr} {s : State} {pc : Pc} (h : s.fcl.pc = some pc) :
    (callOp i s).fcl =
      { s.fcl with pc := some ⟨i, 1⟩, locals := {}, stack := ⟨pc, s.fcl.locals⟩ :: s.fcl.stack } := by
  simp [callOp, h]
theorem returnOp_fcl_top {r : Result} {s : State} (h : s.fcl.stack = []) :
    (returnOp r s).fcl = { s.fcl with pc := none, locals := {}, results := s.fcl.results ++ [r] } := by
  simp [returnOp, h]
theorem returnOp_fcl_caller {r : Result} {s : State} {a : Activation} {rest : List Activation}
    (h : s.fcl.stack = a :: rest) :
    (returnOp r s).fcl =
      { s.fcl with pc := some a.pc, locals := { a.locals with ret := some r }, stack := rest } := by
  simp [returnOp, h]
@[simp] theorem goto_geometry (n : Nat) (s : State) : (goto n s).fcl.geometry = s.fcl.geometry := rfl
@[simp] theorem goto_stack (n : Nat) (s : State) : (goto n s).fcl.stack = s.fcl.stack := rfl
@[simp] theorem goto_result (n : Nat) (s : State) : (goto n s).fcl.result = s.fcl.result := rfl
@[simp] theorem callOp_geometry (i : Instr) (s : State) : (callOp i s).fcl.geometry = s.fcl.geometry := by
  unfold callOp; split <;> rfl
@[simp] theorem callOp_result (i : Instr) (s : State) : (callOp i s).fcl.result = s.fcl.result := by
  unfold callOp; split <;> rfl
@[simp] theorem goto_results (n : Nat) (s : State) : (goto n s).fcl.results = s.fcl.results := rfl
@[simp] theorem callOp_results (i : Instr) (s : State) : (callOp i s).fcl.results = s.fcl.results := by
  unfold callOp; split <;> rfl
/-- R52, R67: at top level a return leaves its value as `fcl.result`. -/
theorem returnOp_result_top {r : Result} {s : State} (h : s.fcl.stack = []) :
    (returnOp r s).fcl.result = some r := by
  simp [returnOp, h, Fcl.result]
/-- R52, R67: a return to a calling operation leaves the results of the launch. -/
theorem returnOp_results_caller {r : Result} {s : State} {a : Activation} {rest : List Activation}
    (h : s.fcl.stack = a :: rest) : (returnOp r s).fcl.results = s.fcl.results := by
  simp [returnOp, h]
@[simp] theorem returnOp_geometry (r : Result) (s : State) : (returnOp r s).fcl.geometry = s.fcl.geometry := by
  unfold returnOp; split <;> rfl

/-! ### Faults -/

theorem mem_recordFault (f : FaultName) (s : State) : f ∈ (recordFault f s).faults := by
  unfold recordFault; split <;> simp_all
theorem recordFault_faults_of_notMem {f : FaultName} {s : State} (h : f ∉ s.faults) :
    (recordFault f s).faults = s.faults ++ [f] := by simp [recordFault, h]

end Sys2Proof.Machine
end

