-- ==== Sys2Proof/Laws/Ops.lean ====
section
/-! SUPPORT. One lemma for each shared operation, saying once everything it can do; later proofs cite these instead of
unfolding the operation. -/

namespace Sys2Proof.Machine

/-! ### Steps that may end in trouble -/

theorem bind_ok_iff {α β : Type} {x : Act α} {k : α → Act β} {b : β} :
    (x >>= k) = .ok b ↔ ∃ a, x = .ok a ∧ k a = .ok b := by
  cases x <;> simp [bind, Except.bind]

theorem bind_error_iff {α β : Type} {x : Act α} {k : α → Act β} {e : Trouble} :
    (x >>= k) = .error e ↔ x = .error e ∨ ∃ a, x = .ok a ∧ k a = .error e := by
  cases x <;> simp [bind, Except.bind]

@[simp] theorem bind_ok {α β : Type} (a : α) (k : α → Act β) : ((Except.ok a : Act α) >>= k) = k a := rfl

@[simp] theorem bind_error {α β : Type} (e : Trouble) (k : α → Act β) :
    ((Except.error e : Act α) >>= k) = .error e := rfl

theorem require_ok_iff {p : Prop} [Decidable p] {e : Trouble} {u : Unit} : require p e = .ok u ↔ p := by
  unfold require; split <;> simp_all

theorem require_error_iff {p : Prop} [Decidable p] {e e' : Trouble} : require p e = .error e' ↔ ¬p ∧ e' = e := by
  unfold require; split <;> simp_all [eq_comm]

theorem require_of {p : Prop} [Decidable p] {e : Trouble} (h : p) : require p e = .ok () := by simp [require, h]

theorem require_of_not {p : Prop} [Decidable p] {e : Trouble} (h : ¬p) : require p e = .error e := by
  simp [require, h]

/-- A step answers a next state where its body ran through, or where the body raised a fault: then the next state is
the one before the step, with the fault recorded (60 R268). -/
theorem finish_next_iff {s t : State} {r : Act State} :
    finish s r = .next t ↔ r = .ok t ∨ ∃ f, r = .error (.raise f) ∧ t = recordFault f s := by
  unfold finish
  split <;> simp_all [eq_comm]

@[simp] theorem finish_ok (s t : State) : finish s (.ok t) = .next t := rfl

@[simp] theorem finish_raise (s : State) (f : FaultName) :
    finish s (.error (.raise f)) = .next (recordFault f s) := rfl

@[simp] theorem finish_stop (s : State) (r : Fault) : finish s (.error (.stop r)) = .fault r := rfl

@[simp] theorem finish_refuse (s : State) (r : Refusal) : finish s (.error (.refuse r)) = .refused r := rfl

/-! ### Buffers and bus -/

theorem readTx_ok_iff {i : Nat} {s : State} {b : Byte} : readTx i s = .ok b ↔ s.tx[i]? = some b := by
  unfold readTx; split <;> simp_all

theorem readTx_of_lt {i : Nat} {s : State} (h : i < s.tx.length) : readTx i s = .ok s.tx[i] := by
  simp [readTx, h]

theorem storeRx_ok_iff {i : Nat} {b : Byte} {s t : State} :
    storeRx i b s = .ok t ↔ i < s.rx.length ∧ t = { s with rx := s.rx.set i b } := by
  unfold storeRx; split <;> simp_all [eq_comm]

theorem shift_ok_iff {b : Byte} {s t : State} :
    shift b s = .ok t ↔ s.bus.state = .ready ∧ t = { s with bus := { s.bus with state := .shifting b } } := by
  unfold shift; split <;> simp_all [eq_comm]

theorem shift_error_iff {b : Byte} {s : State} {e : Trouble} :
    shift b s = .error e ↔ s.bus.state ≠ .ready ∧ e = .raise .busOverrun := by
  unfold shift; split <;> simp_all [eq_comm]

theorem requireOwnership_ok_iff {s : State} {u : Unit} : requireOwnership s = .ok u ↔ s.desc.mode = .idle := by
  simp [requireOwnership, require_ok_iff]

/-! ### Transfer Engine -/

/-- Everything a TE call's populating part can do (R143, R144). -/
theorem startTransfer_ok_iff {c x r : Nat} {s t : State} :
    startTransfer c x r s = .ok t ↔ ∃ b, s.tx[0]? = some b ∧ s.bus.state = .ready ∧
      t = { s with
        desc := ⟨.sendingCommandBytes, b, 1, x, 0, r, c⟩, bus := { s.bus with state := .shifting b }, fg := .asleep } := by
  simp only [startTransfer, bind_ok_iff, readTx_ok_iff, shift_ok_iff, pure, Except.pure]
  constructor
  · rintro ⟨b, hb, u, ⟨hr, rfl⟩, hu⟩
    cases hu
    exact ⟨b, hb, hr, rfl⟩
  · rintro ⟨b, hb, hr, rfl⟩
    exact ⟨b, hb, _, ⟨hr, rfl⟩, rfl⟩

theorem teWriteCall_ok_iff {nCmd nData : Nat} {s t : State} :
    teWriteCall nCmd nData s = .ok t ↔ s.desc.mode = .idle ∧ 1 ≤ nCmd ∧ nCmd + nData ≤ s.cfg.bufCap ∧
      startTransfer (nCmd - 1) (nCmd - 1 + nData) 0 s = .ok t := by
  simp [teWriteCall, bind_ok_iff, require_ok_iff]

theorem teReadCall_ok_iff {nCmd nResp : Nat} {s t : State} :
    teReadCall nCmd nResp s = .ok t ↔ s.desc.mode = .idle ∧ 1 ≤ nCmd ∧
      (nCmd ≤ s.cfg.bufCap ∧ nResp ≤ s.cfg.bufCap) ∧ startTransfer (nCmd - 1) (nCmd - 1) nResp s = .ok t := by
  simp [teReadCall, bind_ok_iff, require_ok_iff]

theorem shiftTx_ok_iff {d : Descriptor} {s t : State} :
    shiftTx d s = .ok t ↔ ∃ b, s.tx[s.desc.txCursor]? = some b ∧ s.bus.state = .ready ∧
      t = { s with desc := d, bus := { s.bus with state := .shifting b } } := by
  simp only [shiftTx, bind_ok_iff, readTx_ok_iff, shift_ok_iff]

/-- What the handler's last case stores and where it goes (R151). -/
theorem storeResponseByte_ok_iff {s t : State} :
    storeResponseByte s = .ok t ↔ s.desc.rxCursor < s.rx.length ∧
      let u := { s with
        rx := s.rx.set s.desc.rxCursor s.bus.rx
        desc := { s.desc with rxCursor := s.desc.rxCursor + 1, rxRemaining := s.desc.rxRemaining - 1 } }
      if 0 < s.desc.rxRemaining - 1 then shift s.cfg.filler u = .ok t else t = finishTransfer u := by
  simp only [storeResponseByte, bind_ok_iff, storeRx_ok_iff, pure, Except.pure]
  constructor
  · rintro ⟨u, ⟨hlt, rfl⟩, hu⟩
    refine ⟨hlt, ?_⟩
    simp only [gt_iff_lt] at hu
    split at hu
    · simp [*]
    · simp only [Except.ok.injEq] at hu
      simp [*]
  · rintro ⟨hlt, h⟩
    refine ⟨_, ⟨hlt, rfl⟩, ?_⟩
    simp only [gt_iff_lt] at h ⊢
    split at h
    · simp [*]
    · simp [*]

theorem byteCompleteStep_ok_iff {s t : State} :
    byteCompleteStep s = .ok t ↔ handlerEnabled s ∧ handleByteComplete (handlerEntry s) = .ok t := by
  simp [byteCompleteStep, bind_ok_iff, require_ok_iff]

theorem busExchangeStep_ok_iff {s t : State} :
    busExchangeStep s = .ok t ↔ ∃ b, s.bus.state = .shifting b ∧
      t = { (exchange b s).2 with bus := ⟨.ready, true, (exchange b s).1⟩ } := by
  unfold busExchangeStep
  split
  · simp_all
  · rename_i b hb
    simp [hb, eq_comm]

/-! ### Device -/

/-- Everything an exchange does to the state (R220, R223): it uses one free value, and the selected device receives
the byte. -/
theorem exchange_state (b : Byte) (s : State) :
    (exchange b s).2 =
      { s with
        draws := s.draws + 1
        dev := if s.cs = .low then { s.dev with frame := s.dev.frame ++ [b] } else s.dev } := by
  unfold exchange
  cases h : s.cs <;> simp

theorem requireIdleDevice_ok_iff {s : State} {u : Unit} : requireIdleDevice s = .ok u ↔ DeviceIdle s := by
  simp [requireIdleDevice, requireActive, requireReady, bind_ok_iff, require_ok_iff]

theorem requirePageFrame_ok_iff {off : Offset} {s : State} {u : Unit} :
    requirePageFrame off s = .ok u ↔ PageFrameTaken off s := by
  simp [requirePageFrame, requirePow2, requireInArray, bind_ok_iff, require_ok_iff, requireIdleDevice_ok_iff]

/-- Everything a raised edge of chip select can do (R171, R222). -/
theorem deselectDevice_ok_iff {s t : State} :
    deselectDevice s = .ok t ↔
      (s.cs = .low ∧ ∃ u, commitFrame s = .ok u ∧ t = { u with cs := .high }) ∨ (s.cs = .high ∧ t = s) := by
  unfold deselectDevice
  cases h : s.cs
  · simp only [bind_ok_iff, pure, Except.pure, Except.ok.injEq, true_and, reduceCtorEq, false_and, or_false]
    simp only [eq_comm]
  · simp [eq_comm]

/-! ### FCL -/

/-- Where an operation acts (R67, R170, R321). -/
theorem atStep_ok_iff {i : Instr} {s t : State} {n : Nat} :
    atStep i s = .ok (n, t) ↔ s.fg = .running ∧
      ((s.fcl.pc = none ∧ n = 1 ∧ t = startOp i s) ∨ (s.fcl.pc = some ⟨i, n⟩ ∧ t = s)) := by
  unfold atStep
  split
  · split
    · simp_all [eq_comm]
    · rename_i pc hpc
      obtain ⟨op, st⟩ := pc
      by_cases h : op = i <;> simp_all [eq_comm]
  · simp_all

/-- At its own step an operation acts in the state as it is. -/
theorem atStep_current {i : Instr} {n : Nat} {s : State} (hr : s.fg = .running) (hp : s.fcl.pc = some ⟨i, n⟩) :
    atStep i s = .ok (n, s) := atStep_ok_iff.2 ⟨hr, .inr ⟨hp, rfl⟩⟩

/-- With no operation running it starts, and acts at step 1. -/
theorem atStep_start {i : Instr} {s : State} (hr : s.fg = .running) (hp : s.fcl.pc = none) :
    atStep i s = .ok (1, startOp i s) := atStep_ok_iff.2 ⟨hr, .inl ⟨hp, rfl, rfl⟩⟩

/-- Running an operation at its own step is running that step's body. -/
theorem runOp_current {i : Instr} {n : Nat} {s : State} {body : Nat → State → Act State} (hr : s.fg = .running)
    (hp : s.fcl.pc = some ⟨i, n⟩) : runOp i body s = finish s (body n s) := by
  simp [runOp, atStep_current hr hp]

/-- Everything one execution of an operation can answer as a next state. -/
theorem runOp_next {i : Instr} {s t : State} {body : Nat → State → Act State} (h : runOp i body s = .next t) :
    (∃ n u, atStep i s = .ok (n, u) ∧ body n u = .ok t) ∨ ∃ f, t = recordFault f s := by
  rcases finish_next_iff.1 h with h | ⟨f, -, h⟩
  · obtain ⟨⟨n, u⟩, hu, hb⟩ := bind_ok_iff.1 h
    exact .inl ⟨n, u, hu, hb⟩
  · exact .inr ⟨f, h⟩

theorem callThen_call {i : Instr} {k : Value → State → Act State} {s : State} (h : s.fcl.locals.ret = none) :
    callThen i k s = .ok (callOp i s) := by simp [callThen, h]

theorem callThen_err {i : Instr} {k : Value → State → Act State} {s : State} {e : ErrorKind}
    (h : s.fcl.locals.ret = some (.err e)) : callThen i k s = .ok (returnOp (.err e) s) := by simp [callThen, h]

theorem callThen_ok {i : Instr} {k : Value → State → Act State} {s : State} {v : Value}
    (h : s.fcl.locals.ret = some (.ok v)) :
    callThen i k s = k v (setLocals { s.fcl.locals with ret := none } s) := by simp [callThen, h]

/-- Everything `page_offset` can answer (R181). -/
theorem pageOffsetOf_ok_iff {p off : Nat} {s : State} :
    pageOffsetOf p s = .ok off ↔ ∃ g, s.fcl.geometry = some g ∧ p < g.pageCount ∧ off = p <<< g.pageShift := by
  unfold pageOffsetOf
  split
  · simp_all
  · rename_i g hg
    by_cases hp : p ≥ g.pageCount
    · simp [hp, hg, Nat.not_lt.2 hp]
    · simp [hp, hg, Nat.not_le.1 hp, eq_comm]

/-! ### The host (70 R320, R321) -/

/-- When the host may start `op` next. -/
theorem nextCall_eq_some_iff {s : State} {op : Instr} : nextCall s = some op ↔
    (∃ rest, s.calls = op :: rest) ∧ s.fg = .running ∧ s.fcl.pc = none ∧ (∀ e, s.fcl.result ≠ some (.err e)) ∧
      op.isTopLevel = true := by
  have hf : lastFailed s = false ↔ ∀ e, s.fcl.result ≠ some (.err e) := by
    unfold lastFailed; split <;> simp [*]
  cases h : s.calls with
  | nil => simp [nextCall, h]
  | cons o rest =>
    by_cases hc : (noOperation s && !lastFailed s && o.isTopLevel) = true
    · simp only [nextCall, h, if_pos hc]
      simp only [noOperation, Bool.and_eq_true, beq_iff_eq, Bool.not_eq_true', hf] at hc
      simp only [Option.some.injEq, List.cons.injEq]
      constructor
      · rintro rfl
        exact ⟨⟨rest, rfl, rfl⟩, hc.1.1.1, hc.1.1.2, hc.1.2, hc.2⟩
      · exact fun ⟨⟨_, h1, _⟩, _⟩ => h1
    · simp only [nextCall, h, if_neg hc]
      simp only [noOperation, Bool.and_eq_true, beq_iff_eq, Bool.not_eq_true', hf] at hc
      simp only [List.cons.injEq, reduceCtorEq, false_iff]
      rintro ⟨⟨_, rfl, -⟩, h1, h2, h3, h4⟩
      exact hc ⟨⟨⟨h1, h2⟩, h3⟩, h4⟩

/-- Everything the host's start of a call can do. -/
theorem hostStart_cases (s : State) :
    hostStart s = s ∨ ∃ op rest, s.calls = op :: rest ∧ nextCall s = some op ∧
      hostStart s = startOp op { s with calls := rest } := by
  unfold hostStart
  split
  · rename_i op h
    obtain ⟨⟨rest, hr⟩, -⟩ := nextCall_eq_some_iff.1 h
    exact .inr ⟨op, rest, hr, h, by rw [hr]; rfl⟩
  · exact .inl rfl

end Sys2Proof.Machine
end

