-- ==== Sys2Proof/Laws/Frames.lean ====
section
/-! SUPPORT. What the effect of a device frame, and its commit at CS rising, can do to the state. -/

namespace Sys2Proof.Machine

theorem writePageBuf_length (p b0 : Nat) (buf l : List Byte) : (writePageBuf p b0 buf l).length = buf.length := by
  induction l generalizing b0 buf with
  | nil => rfl
  | cons b rest ih => simp [writePageBuf, ih]

theorem programmedBytes_length {c : Config} {old p : List Byte} (h : old.length = p.length) :
    (programmedBytes c old p).length = p.length := by
  unfold programmedBytes; split <;> simp [h]

/-- An aligned page that starts inside the array ends inside it. -/
theorem page_in_array {s : State} {off : Nat} (h : off < deviceCap s) (ha : off % devicePage s = 0) :
    off + devicePage s ≤ deviceCap s := by
  obtain ⟨k, rfl⟩ := Nat.dvd_of_mod_eq_zero ha
  simp only [deviceCap, devicePage, Geometry.capacity, Geometry.pageSize] at *
  have hk : k < s.cfg.devGeom.pageCount := Nat.lt_of_mul_lt_mul_left h
  calc _ = 2 ^ s.cfg.devGeom.pageShift * (k + 1) := by ring
    _ ≤ _ := Nat.mul_le_mul_left _ hk

/-- The bytes of a block that the array has end inside it. -/
theorem blockBytes_in_array {s : State} {off : Offset} (h : off.toNat < deviceCap s) :
    off.toNat + blockBytes off s ≤ deviceCap s := by
  unfold blockBytes; omega

/-- On a device whose page count is a multiple of 8, an aligned block is whole. -/
theorem blockBytes_of_whole {s : State} {off : Offset} (h : off.toNat < deviceCap s)
    (ha : off.toNat % (8 * devicePage s) = 0) (hc : s.cfg.devGeom.pageCount % 8 = 0) :
    blockBytes off s = 8 * devicePage s := by
  obtain ⟨k, hk⟩ := Nat.dvd_of_mod_eq_zero ha
  obtain ⟨m, hm⟩ := Nat.dvd_of_mod_eq_zero hc
  have hcap : deviceCap s = 8 * devicePage s * m := by
    simp only [deviceCap, devicePage, Geometry.capacity, Geometry.pageSize, hm]; ring
  have hkm : k + 1 ≤ m := Nat.lt_of_mul_lt_mul_left (a := 8 * devicePage s) (by omega)
  have : 8 * devicePage s * (k + 1) ≤ 8 * devicePage s * m := Nat.mul_le_mul_left _ hkm
  rw [Nat.mul_add, Nat.mul_one] at this
  unfold blockBytes; omega

/-- As `bind_ok_iff`, for a check. -/
theorem check_bind_ok_iff {β : Type} {x : Act Unit} {k : Unit → Act β} {b : β} :
    (x >>= k) = .ok b ↔ x = .ok () ∧ k () = .ok b := by
  cases x <;> simp [bind, Except.bind]

/-- Everything an accepted frame's effect can do to the state: it writes the device alone, and keeps its frame
buffer, the array's canonical form and the page buffer's length. -/
theorem frameEffect_ok {i : Instr} {s t : State} (h : frameEffect i s = .ok t) :
    t = { s with dev := t.dev } ∧ t.dev.frame = s.dev.frame ∧
    (s.dev.array.wf (deviceCap s) → s.dev.pagebuf.length = devicePage s →
      t.dev.array.wf (deviceCap s) ∧ t.dev.pagebuf.length = devicePage s) ∧
    ((∃ o l, i = .pageProgramFrame o l) ∨ (∃ o, i = .pageEraseFrame o) ∨ i = .chipEraseFrame ∨
      (∃ o, i = .blockEraseFrame o) ∨ (∃ o, i = .bufferToMainFrame o) ∨ t.dev.array = s.dev.array) := by
  cases i <;> simp only [frameEffect, reduceCtorEq] at h
  all_goals
    simp only [identifyFrameEffect, readStatusFrameEffect, fastReadFrameEffect, pageProgramFrameEffect,
      pageEraseFrameEffect, chipEraseFrameEffect, blockEraseFrameEffect, bufferWriteFrameEffect,
      bufferReadFrameEffect, bufferToMainFrameEffect, mainToBufferFrameEffect, powerDownFrameEffect,
      resumeFrameEffect, pageSizePow2FrameEffect, check_bind_ok_iff, requireAligned, requireWholePage, requireAdmitted,
      requirePow2, requireReady, requireActive, requireReadRange, require_ok_iff, requirePageFrame_ok_iff,
      requireIdleDevice_ok_iff, pure, Except.pure, Except.ok.injEq, writeArrayBusy] at h
  case pageProgramFrame =>
    obtain ⟨hp, ha, hl, rfl⟩ := h
    refine ⟨rfl, rfl, fun hw hb => ⟨Memory.wf_writeBytes hw ?_, hb⟩, by simp⟩
    rw [programmedBytes_length (by simp [hl]), hl]
    exact page_in_array hp.2.2 ha
  case pageEraseFrame =>
    obtain ⟨hp, ha, rfl⟩ := h
    exact ⟨rfl, rfl, fun hw hb => ⟨Memory.wf_eraseRange hw (page_in_array hp.2.2 ha), hb⟩, by simp⟩
  case chipEraseFrame =>
    obtain ⟨-, rfl⟩ := h
    exact ⟨rfl, rfl, fun hw hb => ⟨Memory.wf_allErased _, hb⟩, by simp⟩
  case blockEraseFrame =>
    obtain ⟨hp, -, -, rfl⟩ := h
    exact ⟨rfl, rfl, fun hw hb => ⟨Memory.wf_eraseRange hw (blockBytes_in_array hp.2.2), hb⟩, by simp⟩
  case bufferWriteFrame =>
    obtain ⟨-, -, -, rfl⟩ := h
    exact ⟨rfl, rfl, fun hw hb => ⟨hw, by simpa [writePageBuf_length] using hb⟩, by simp⟩
  case bufferToMainFrame =>
    obtain ⟨hp, -, ha, rfl⟩ := h
    refine ⟨rfl, rfl, fun hw hb => ⟨Memory.wf_writeBytes hw ?_, hb⟩, by simp⟩
    rw [hb]; exact page_in_array hp.2.2 ha
  case mainToBufferFrame =>
    obtain ⟨-, -, -, rfl⟩ := h
    exact ⟨rfl, rfl, fun hw _ => ⟨hw, by simp⟩, by simp⟩
  all_goals
    have h := h.2
    repeat have h := h.2
    subst h
    exact ⟨rfl, rfl, fun hw hb => ⟨hw, hb⟩, by simp⟩

theorem decode_cons_ne_empty (c : Config) (op : Byte) (rest : List Byte) :
    decode c (op :: rest) ≠ .error .emptyFrame := by
  have ite_ne : ∀ {p : Prop} [Decidable p] {x y : Except DecodeError Instr} {e : DecodeError},
      x ≠ .error e → y ≠ .error e → (if p then x else y) ≠ .error e := by intros; split <;> assumption
  have h1 : ∀ i, decodeOp1 i rest ≠ .error .emptyFrame := by intro i; unfold decodeOp1; split <;> simp
  have h2 : ∀ mk, decodeAddr mk rest ≠ .error .emptyFrame := by intro mk; unfold decodeAddr; split <;> simp
  have h3 : ∀ mk, decodeProg mk rest ≠ .error .emptyFrame := by intro mk; unfold decodeProg; split <;> simp
  have h4 : ∀ mk, decodeRead mk rest ≠ .error .emptyFrame := by intro mk; unfold decodeRead; split <;> simp
  have h5 : ∀ q i, decodeSeq4 q i rest ≠ .error .emptyFrame := fun q i =>
    ite_ne (ite_ne (by simp) (by simp)) (by simp)
  unfold decode
  repeat' apply ite_ne
  all_goals first | apply h1 | apply h2 | apply h3 | apply h4 | apply h5 | simp

/-- Everything a commit can do. -/
theorem commitFrame_ok_iff {s t : State} : commitFrame s = .ok t ↔
    ((s.cfg.devPresent = false ∨ s.dev.frame = []) ∧ t = clearFrame s) ∨
    (s.cfg.devPresent = true ∧ ∃ i, decode s.cfg s.dev.frame = .ok i ∧ frameEffect i (clearFrame s) = .ok t) := by
  unfold commitFrame
  cases hp : s.cfg.devPresent
  · simp [eq_comm]
  · cases hf : s.dev.frame with
    | nil => simp [decode, eq_comm]
    | cons op rest =>
      cases hd : decode s.cfg (op :: rest) with
      | ok i => simp
      | error e =>
        cases e
        · exact absurd hd (decode_cons_ne_empty _ _ _)
        · simp
        · simp

theorem commitFrame_ok {s t : State} (h : commitFrame s = .ok t) :
    t = { s with dev := t.dev } ∧ t.dev.frame = [] ∧
    (s.dev.array.wf (deviceCap s) → s.dev.pagebuf.length = devicePage s →
      t.dev.array.wf (deviceCap s) ∧ t.dev.pagebuf.length = devicePage s) := by
  rcases commitFrame_ok_iff.1 h with ⟨-, rfl⟩ | ⟨-, i, -, hi⟩
  · exact ⟨rfl, rfl, fun a b => ⟨a, b⟩⟩
  · obtain ⟨h1, h2, h3, -⟩ := frameEffect_ok hi
    exact ⟨by rw [h1]; rfl, h2, h3⟩

end Sys2Proof.Machine
end

