-- ==== Sys2Proof/Laws/Commands.lean ====
section
/-! SUPPORT. What one step of a Flash Command Layer operation can do to the state: most steps move the FCL's control
position and the trace alone. -/

namespace Sys2Proof.Machine

/-- `t` differs from `s` at most in the FCL's control position, locals, stack and result, and in the trace. -/
def ControlOnly (s t : State) : Prop :=
  t = { s with fcl := { t.fcl with geometry := s.fcl.geometry }, trace := t.trace }

theorem ControlOnly.refl (s : State) : ControlOnly s s := rfl

theorem ControlOnly.trans {s t u : State} (h : ControlOnly s t) (h' : ControlOnly t u) : ControlOnly s u := by
  unfold ControlOnly at *
  rw [h', h]

theorem controlOnly_startOp (i : Instr) (s : State) : ControlOnly s (startOp i s) := rfl

theorem controlOnly_goto (n : Nat) (s : State) : ControlOnly s (goto n s) := rfl

theorem controlOnly_setLocals (l : Locals) (s : State) : ControlOnly s (setLocals l s) := rfl

theorem controlOnly_emit (r : TraceRecord) (s : State) : ControlOnly s (emit r s) := rfl

theorem controlOnly_callOp (i : Instr) (s : State) : ControlOnly s (callOp i s) := by
  unfold callOp; split <;> rfl

theorem controlOnly_returnOp (r : Result) (s : State) : ControlOnly s (returnOp r s) := by
  unfold returnOp; split <;> rfl

/-- Everything a calling step can do. -/
theorem controlOnly_callThen {i : Instr} {k : Value → State → Act State} {s t : State}
    (hk : ∀ v u, k v u = .ok t → ControlOnly u t) (h : callThen i k s = .ok t) : ControlOnly s t := by
  unfold callThen at h
  split at h
  · cases h; exact controlOnly_callOp _ _
  · cases h; exact controlOnly_returnOp _ _
  · exact (controlOnly_setLocals _ _).trans (hk _ _ h)

theorem controlOnly_callIf {p : Prop} [Decidable p] {i : Instr} {n : Nat} {s t : State}
    (h : callIf p i n s = .ok t) : ControlOnly s t := by
  unfold callIf at h
  split at h
  · exact controlOnly_callThen (fun v u hu => by cases hu; exact controlOnly_goto _ _) h
  · cases h; exact controlOnly_goto _ _

theorem controlOnly_loopTest (count : Nat) (s : State) : ControlOnly s (loopTest count s) := by
  unfold loopTest; split
  · exact controlOnly_returnOp _ _
  · exact controlOnly_goto _ _

theorem controlOnly_waitReadyStep {n : Nat} {s t : State} (h : waitReadyStep n s = .ok t) : ControlOnly s t := by
  unfold waitReadyStep at h
  split at h
  · cases h; rfl
  · refine controlOnly_callThen (fun v u hu => ?_) h
    unfold countPoll at hu
    split at hu
    · cases hu; rfl
    · cases hu
  · split at h <;> cases h
    · exact controlOnly_returnOp _ _
    · rfl
  · split at h <;> cases h
    · exact controlOnly_returnOp _ _
    · rfl
  · cases h; rfl
  · cases h

theorem controlOnly_identifyStep {n : Nat} {s t : State} (hn : n ≠ 4) (h : identifyStep n s = .ok t) :
    ControlOnly s t := by
  unfold identifyStep at h
  split at h
  · refine controlOnly_callThen (fun v u hu => ?_) h
    unfold keepId at hu
    split at hu
    · cases hu; rfl
    · cases hu
  · cases h; rfl
  · split at h <;> cases h
    · exact controlOnly_returnOp _ _
    · rfl
  · exact absurd rfl hn
  · cases h

theorem controlOnly_decodeIdStep {id : List Byte} {n : Nat} {s t : State} (h : decodeIdStep id n s = .ok t) :
    ControlOnly s t := by
  unfold decodeIdStep at h
  split at h
  · cases h; exact controlOnly_returnOp _ _
  · cases h

theorem controlOnly_pageOffsetStep {p n : Nat} {s t : State} (h : pageOffsetStep p n s = .ok t) :
    ControlOnly s t := by
  unfold pageOffsetStep at h
  split at h
  · obtain ⟨off, -, h⟩ := bind_ok_iff.1 h
    cases h; exact controlOnly_returnOp _ _
  · cases h

theorem controlOnly_deviceOpStep {b : TransferBody} {mb : Bool} {n : Nat} {s t : State}
    (h : deviceOpStep b mb n s = .ok t) : ControlOnly s t := by
  unfold deviceOpStep at h
  split at h
  · exact controlOnly_callIf h
  · exact controlOnly_callIf h
  · exact controlOnly_callThen (fun v u hu => by cases hu; rfl) h
  · exact controlOnly_callIf h
  · unfold bracketClose at h
    split at h
    · split at h
      · split at h
        · cases h; exact (controlOnly_setLocals _ _).trans (controlOnly_callOp _ _)
        · cases h; exact (controlOnly_setLocals _ _).trans (controlOnly_callOp _ _)
      · cases h; exact controlOnly_returnOp _ _
      · split at h
        · cases h
          exact (controlOnly_setLocals _ _).trans ((controlOnly_setLocals _ _).trans (controlOnly_callOp _ _))
        · cases h; rfl
    · cases h; rfl
  · cases h; exact controlOnly_returnOp _ _
  · cases h

theorem controlOnly_keepOffset {p off : Nat} {s t : State} (h : keepOffset p off s = .ok t) : ControlOnly s t := by
  obtain ⟨-, h⟩ := check_bind_ok_iff.1 h
  cases h; rfl

theorem controlOnly_erasePageStep {p n : Nat} {s t : State} (h : erasePageStep p n s = .ok t) : ControlOnly s t := by
  unfold erasePageStep at h
  split at h
  · obtain ⟨off, -, h⟩ := bind_ok_iff.1 h
    exact controlOnly_keepOffset h
  · exact controlOnly_callThen (fun v u hu => by cases hu; rfl) h
  · cases h; exact controlOnly_returnOp _ _
  · cases h

theorem controlOnly_eraseChipStep {n : Nat} {s t : State} (h : eraseChipStep n s = .ok t) : ControlOnly s t := by
  unfold eraseChipStep at h
  split at h
  · cases h; rfl
  · exact controlOnly_callThen (fun v u hu => by cases hu; rfl) h
  · cases h; exact controlOnly_returnOp _ _
  · cases h

theorem controlOnly_programPageStep {p n : Nat} {b : List Byte} {s t : State} (h : programPageStep p b n s = .ok t) :
    ControlOnly s t := by
  unfold programPageStep at h
  split at h
  · obtain ⟨off, -, h⟩ := bind_ok_iff.1 h
    obtain ⟨-, h⟩ := check_bind_ok_iff.1 h
    exact controlOnly_keepOffset h
  · exact controlOnly_callThen (fun v u hu => by cases hu; rfl) h
  · cases h; exact controlOnly_returnOp _ _
  · cases h

theorem controlOnly_nextUnit {v : Value} {s t : State} (h : nextUnit v s = .ok t) : ControlOnly s t := by
  cases h; rfl

theorem controlOnly_eraseBlocksStep {start count n : Nat} {s t : State} (h : eraseBlocksStep start count n s = .ok t) :
    ControlOnly s t := by
  unfold eraseBlocksStep at h
  split at h
  · split at h <;> cases h
    rfl
  · cases h; exact controlOnly_loopTest _ _
  · exact controlOnly_callThen (fun v u hu => controlOnly_nextUnit hu) h
  · cases h

theorem controlOnly_programBlocksStep {start count n : Nat} {b : List Byte} {s t : State}
    (h : programBlocksStep start count b n s = .ok t) : ControlOnly s t := by
  unfold programBlocksStep at h
  split at h
  · split at h
    · cases h
    · split at h <;> cases h
      rfl
  · cases h; exact controlOnly_loopTest _ _
  · exact controlOnly_callThen (fun v u hu => controlOnly_nextUnit hu) h
  · cases h

theorem controlOnly_readBytesStep {off len n : Nat} {s t : State} (h : readBytesStep off len n s = .ok t) :
    ControlOnly s t := by
  unfold readBytesStep at h
  split at h
  · obtain ⟨-, h⟩ := check_bind_ok_iff.1 h
    cases h; rfl
  · exact controlOnly_callThen (fun v u hu => by cases hu; rfl) h
  · cases h; exact controlOnly_returnOp _ _
  · cases h

theorem controlOnly_powerDownStep {n : Nat} {s t : State} (h : powerDownStep n s = .ok t) : ControlOnly s t := by
  unfold powerDownStep at h
  split at h
  · exact controlOnly_callThen (fun v u hu => by cases hu; rfl) h
  · cases h; exact controlOnly_returnOp _ _
  · cases h

theorem controlOnly_resumeStep {n : Nat} {s t : State} (h : resumeStep n s = .ok t) : ControlOnly s t := by
  unfold resumeStep at h
  split at h
  · exact controlOnly_callThen (fun v u hu => by cases hu; rfl) h
  · cases h; rfl
  · cases h; exact controlOnly_returnOp _ _
  · cases h

theorem controlOnly_reprogramPageSizeStep {n : Nat} {s t : State} (h : reprogramPageSizeStep n s = .ok t) :
    ControlOnly s t := by
  unfold reprogramPageSizeStep at h
  split at h
  · exact controlOnly_callThen (fun v u hu => by cases hu; rfl) h
  · cases h; exact controlOnly_returnOp _ _
  · cases h

theorem controlOnly_initStep {n : Nat} {s t : State} (hn : n ≠ 1) (h : initStep n s = .ok t) : ControlOnly s t := by
  unfold initStep at h
  split at h
  · exact absurd rfl hn
  · exact controlOnly_callThen (fun v u hu => by cases hu; rfl) h
  · unfold initIdentify at h
    split at h
    · cases h; exact (controlOnly_emit _ _).trans (controlOnly_returnOp _ _)
    · exact controlOnly_callThen (fun v u hu => by cases hu; rfl) h
  · refine controlOnly_callThen (fun v u hu => ?_) h
    unfold keepStatus at hu
    split at hu
    · cases hu; rfl
    · cases hu
  · unfold initFormat at h
    split at h
    · cases h; rfl
    · exact controlOnly_callThen
        (fun v u hu => by cases hu; exact (controlOnly_emit _ _).trans (controlOnly_returnOp _ _)) h
  · exact controlOnly_callIf h
  · cases h; exact (controlOnly_emit _ _).trans (controlOnly_returnOp _ _)
  · cases h

end Sys2Proof.Machine
end

