-- ==== Sys2Proof/Laws/PerInstr.lean ====
section
/-! SUPPORT. What is said of every instruction as syntax, one lemma per constructor. -/

namespace Sys2Proof.Laws.Encode

/-- An instruction has an encoding exactly if it is a device command frame (30_encoding.md section 3), and the first
byte of an encoding is one of the fourteen that R120 keeps distinct. -/
def Statement (i : Instr) : Prop :=
  ∀ c : Config, ((encode c i).isSome = i.isFrame) ∧
    ∀ f, encode c i = some f → ∃ op rest, f = op :: rest ∧ op ∈ c.firstBytes

/-- A frame: its encoding is a first byte and the rest. -/
theorem of_frame {i : Instr} (hi : i.isFrame = true)
    (h : ∀ c : Config, ∃ op rest, encode c i = some (op :: rest) ∧ op ∈ c.firstBytes) : Statement i := by
  intro c
  obtain ⟨op, rest, he, hm⟩ := h c
  refine ⟨by rw [he, hi]; rfl, fun f hf => ⟨op, rest, ?_, hm⟩⟩
  rw [he] at hf
  exact (Option.some.inj hf).symm

/-- Any other instruction: it has no encoding. -/
theorem of_call {i : Instr} (hi : i.isFrame = false) (h : ∀ c : Config, encode c i = none) : Statement i := by
  intro c
  refine ⟨by rw [h c, hi]; rfl, fun f hf => ?_⟩
  rw [h c] at hf
  cases hf

theorem identifyFrame (nResp : Nat) : Statement (.identifyFrame nResp) :=
  of_frame rfl fun c => ⟨_, _, rfl, by simp [Config.firstBytes]⟩

theorem readStatusFrame (nResp : Nat) : Statement (.readStatusFrame nResp) :=
  of_frame rfl fun c => ⟨_, _, rfl, by simp [Config.firstBytes]⟩

theorem fastReadFrame (off : Offset) (nResp : Nat) : Statement (.fastReadFrame off nResp) :=
  of_frame rfl fun c => ⟨_, _, rfl, by simp [Config.firstBytes]⟩

theorem pageProgramFrame (off : Offset) (payload : List Byte) : Statement (.pageProgramFrame off payload) :=
  of_frame rfl fun c => ⟨_, _, rfl, by simp [Config.firstBytes]⟩

theorem pageEraseFrame (off : Offset) : Statement (.pageEraseFrame off) :=
  of_frame rfl fun c => ⟨_, _, rfl, by simp [Config.firstBytes]⟩

theorem chipEraseFrame : Statement .chipEraseFrame :=
  of_frame rfl fun c => ⟨_, _, rfl, by simp [Config.firstBytes]⟩

theorem blockEraseFrame (off : Offset) : Statement (.blockEraseFrame off) :=
  of_frame rfl fun c => ⟨_, _, rfl, by simp [Config.firstBytes]⟩

theorem bufferWriteFrame (off : Offset) (payload : List Byte) : Statement (.bufferWriteFrame off payload) :=
  of_frame rfl fun c => ⟨_, _, rfl, by simp [Config.firstBytes]⟩

theorem bufferReadFrame (off : Offset) (nResp : Nat) : Statement (.bufferReadFrame off nResp) :=
  of_frame rfl fun c => ⟨_, _, rfl, by simp [Config.firstBytes]⟩

theorem bufferToMainFrame (off : Offset) : Statement (.bufferToMainFrame off) :=
  of_frame rfl fun c => ⟨_, _, rfl, by simp [Config.firstBytes]⟩

theorem mainToBufferFrame (off : Offset) : Statement (.mainToBufferFrame off) :=
  of_frame rfl fun c => ⟨_, _, rfl, by simp [Config.firstBytes]⟩

theorem powerDownFrame : Statement .powerDownFrame :=
  of_frame rfl fun c => ⟨_, _, rfl, by simp [Config.firstBytes]⟩

theorem resumeFrame : Statement .resumeFrame :=
  of_frame rfl fun c => ⟨_, _, rfl, by simp [Config.firstBytes]⟩

theorem pageSizePow2Frame : Statement .pageSizePow2Frame :=
  of_frame rfl fun c => ⟨_, _, rfl, by simp [Config.firstBytes]⟩

theorem busStep : Statement .busStep :=
  of_call rfl fun _ => rfl

theorem teWrite (nCmd : Nat) (nData : Nat) : Statement (.teWrite nCmd nData) :=
  of_call rfl fun _ => rfl

theorem teRead (nCmd : Nat) (nResp : Nat) : Statement (.teRead nCmd nResp) :=
  of_call rfl fun _ => rfl

theorem byteComplete : Statement .byteComplete :=
  of_call rfl fun _ => rfl

theorem issueWrite (frame : List Byte) (nCmd : Nat) : Statement (.issueWrite frame nCmd) :=
  of_call rfl fun _ => rfl

theorem issueRead (cmd : List Byte) (nResp : Nat) : Statement (.issueRead cmd nResp) :=
  of_call rfl fun _ => rfl

theorem waitReady : Statement .waitReady :=
  of_call rfl fun _ => rfl

theorem identify : Statement .identify :=
  of_call rfl fun _ => rfl

theorem decodeId (id : List Byte) : Statement (.decodeId id) :=
  of_call rfl fun _ => rfl

theorem pageOffset (pageIndex : Nat) : Statement (.pageOffset pageIndex) :=
  of_call rfl fun _ => rfl

theorem deviceOp (body : TransferBody) (makesBusy : Bool) : Statement (.deviceOp body makesBusy) :=
  of_call rfl fun _ => rfl

theorem erasePage (pageIndex : Nat) : Statement (.erasePage pageIndex) :=
  of_call rfl fun _ => rfl

theorem eraseChip : Statement .eraseChip :=
  of_call rfl fun _ => rfl

theorem programPage (pageIndex : Nat) (buffer : List Byte) : Statement (.programPage pageIndex buffer) :=
  of_call rfl fun _ => rfl

theorem eraseBlocks (startBlock : Nat) (count : Nat) : Statement (.eraseBlocks startBlock count) :=
  of_call rfl fun _ => rfl

theorem programBlocks (startBlock : Nat) (count : Nat) (buffer : List Byte) : Statement (.programBlocks startBlock count buffer) :=
  of_call rfl fun _ => rfl

theorem readBytes (offset : Nat) (length : Nat) : Statement (.readBytes offset length) :=
  of_call rfl fun _ => rfl

theorem powerDown : Statement .powerDown :=
  of_call rfl fun _ => rfl

theorem resume : Statement .resume :=
  of_call rfl fun _ => rfl

theorem reprogramPageSize : Statement .reprogramPageSize :=
  of_call rfl fun _ => rfl

theorem init : Statement .init :=
  of_call rfl fun _ => rfl

theorem deviceExchange (b : Byte) : Statement (.deviceExchange b) :=
  of_call rfl fun _ => rfl

theorem commit : Statement .commit :=
  of_call rfl fun _ => rfl

theorem deviceComplete : Statement .deviceComplete :=
  of_call rfl fun _ => rfl

end Sys2Proof.Laws.Encode
end

