-- ==== Sys2Proof/Tests/Slice0.lean ====
section
/-! SUPPORT. Small tests of single steps, their expected results written from 30_encoding.md and 95_test_vectors.md, and
one witness for the hypotheses of each statement. -/

namespace Sys2Proof.Tests

open Sys2Proof Sys2Proof.Machine

/-! ### Small states -/

/-- 8-byte buffers, a device of 16 pages of 2 bytes, the buffer commands admitted. -/
def tiny : Config := { Config.informative with bufCap := 8, devGeom := ⟨1, 16⟩, admitBufferCmds := true }

/-- At rest: no operation runs, the device is deselected, and its array holds F0 12 from offset 2. -/
def calm : State :=
  { State.resetAt tiny with
    cs := .high
    fcl := { Fcl.reset with pc := none }
    dev := { (State.resetAt tiny).dev with array := ⟨.erased, [(2, 0xF0), (3, 0x12)]⟩ } }

/-- The foreground stands at step `n` of `i`, with locals `l`. -/
def standing (i : Instr) (n : Nat) (l : Locals := {}) : State :=
  { calm with fcl := { calm.fcl with pc := some ⟨i, n⟩, locals := l } }

/-- The selected device has received `bytes`. -/
def received (bytes : List Byte) (s : State := calm) : State :=
  { s with cs := .low, dev := { s.dev with frame := bytes } }

/-- The device is busy. -/
def busied (s : State := calm) : State := { s with dev := { s.dev with busy := true } }

/-- The device is powered down. -/
def asleepDevice (s : State := calm) : State := { s with dev := { s.dev with power := .poweredDown } }

/-- The device is in the legacy layout. -/
def legacy (s : State := calm) : State := { s with dev := { s.dev with format := .legacy } }

/-- `init` returned, a second operation timed out, and a third call is still listed. -/
def failed : State :=
  { calm with fcl := { calm.fcl with results := [.ok .unit, .err .timeout] }, calls := [.erasePage 3] }

/-- With these parameters instead. -/
def withCfg (c : Config) (s : State := calm) : State := { s with cfg := c }

/-- With these bytes in TX and this descriptor, waiting for the interrupt that is pending. -/
def waiting (tx : List Byte) (d : Descriptor) : State :=
  { calm with tx := tx, desc := d, fg := .asleep, bus := ⟨.ready, true, 0x55⟩ }

/-- What `f` reads in the next state. -/
def after {α : Type} (o : Host.Outcome State Fault Refusal) (f : State → α) : Option α :=
  match o with
  | .next s => some (f s)
  | .fault _ => none
  | .refused _ => none

/-- The outcome is a next state. -/
def answers (o : Host.Outcome State Fault Refusal) : Bool := (after o fun _ => ()).isSome

/-- The faults recorded in the next state. -/
def faultsOf (o : Host.Outcome State Fault Refusal) : Option (List FaultName) := after o fun s => s.faults

/-! ### Decoding: words written out from 30_encoding.md section 3 (R106 to R119) -/

theorem test_decode_identify : decode tiny [0x9F, 0xFF, 0xFF, 0xFF] = .ok (.identifyFrame 3) := by decide
theorem test_decode_read_status : decode tiny [0xD7, 0xFF] = .ok (.readStatusFrame 1) := by decide
theorem test_decode_fast_read :
    decode tiny [0x0B, 0x07, 0xFF, 0x10, 0xFF, 0xFF, 0xFF] = .ok (.fastReadFrame 0x07FF10 2) := by decide
theorem test_decode_page_program :
    decode tiny [0x82, 0x00, 0x01, 0x00, 0xAA, 0x55] = .ok (.pageProgramFrame 0x000100 [0xAA, 0x55]) := by decide
theorem test_decode_page_erase : decode tiny [0x81, 0x07, 0xFF, 0x00] = .ok (.pageEraseFrame 0x07FF00) := by decide
theorem test_decode_chip_erase : decode tiny [0xC7, 0x94, 0x80, 0x9A] = .ok .chipEraseFrame := by decide
theorem test_decode_block_erase : decode tiny [0x50, 0x00, 0x08, 0x00] = .ok (.blockEraseFrame 0x000800) := by decide
theorem test_decode_buffer_write :
    decode tiny [0x84, 0x00, 0x00, 0x03, 0x31] = .ok (.bufferWriteFrame 0x000003 [0x31]) := by decide
theorem test_decode_buffer_read :
    decode tiny [0xD4, 0x00, 0x00, 0x03, 0xFF, 0xFF] = .ok (.bufferReadFrame 0x000003 1) := by decide
theorem test_decode_buffer_to_main :
    decode tiny [0x83, 0x1F, 0xFE, 0x00] = .ok (.bufferToMainFrame 0x1FFE00) := by decide
theorem test_decode_main_to_buffer :
    decode tiny [0x53, 0x7F, 0xFC, 0x00] = .ok (.mainToBufferFrame 0x7FFC00) := by decide
theorem test_decode_power_down : decode tiny [0xB9] = .ok .powerDownFrame := by decide
theorem test_decode_resume : decode tiny [0xAB] = .ok .resumeFrame := by decide
theorem test_decode_page_size_pow2 : decode tiny [0x3D, 0x2A, 0x80, 0xA6] = .ok .pageSizePow2Frame := by decide
/-- R105: a payload may be empty; R222: so may a select. -/
theorem test_decode_corners :
    decode tiny [0x82, 0x00, 0x00, 0x02] = .ok (.pageProgramFrame 2 []) ∧ decode tiny [] = .error .emptyFrame := by
  decide
/-- The rows of the opcode table at their informative words. -/
theorem test_table_words :
    decodeTableWord 8 0x9F = some (.identifyFrame 3) ∧ decodeTableWord 8 0x0B = some (.fastReadFrame 0 0) ∧
    decodeTableWord 8 0x81 = some (.pageEraseFrame 0) ∧ decodeTableWord 32 0xC794809A = some .chipEraseFrame ∧
    decodeTableWord 8 0xAB = some .resumeFrame ∧ decodeTableWord 32 0x3D2A80A6 = some .pageSizePow2Frame ∧
    decodeTableWord 8 0x00 = none := by decide
/-- The very next step commits the placed frame: POWER_DOWN powers the device down. -/
theorem test_fetch_word_runs :
    after (step (calm.withFetchWord 8 0xB9)) (fun s => (s.dev.power, s.cs, s.faults)) =
      some (.poweredDown, .high, []) := by decide

/-! ### WellFormed: an ill-formed term for each check (R125, R172, R173, R178, R182) -/

theorem test_ill_formed_te_write : (Instr.teWrite 0 3).wf = false ∧ (Instr.teWrite 1 3).wf = true := by decide
theorem test_ill_formed_te_read : (Instr.teRead 0 3).wf = false ∧ (Instr.teRead 1 0).wf = true := by decide
theorem test_ill_formed_issue_write_no_command :
    (Instr.issueWrite [0xB9] 0).wf = false ∧ (Instr.issueWrite [0xB9] 1).wf = true := by decide
theorem test_ill_formed_issue_write_short : (Instr.issueWrite [0xB9] 2).wf = false := by decide
theorem test_ill_formed_issue_read : (Instr.issueRead [] 1).wf = false ∧ (Instr.issueRead [0xD7] 0).wf = true := by
  decide
theorem test_ill_formed_decode_id :
    (Instr.decodeId [0x1F, 0x21]).wf = false ∧ (Instr.decodeId [0x1F, 0x21, 0]).wf = true := by decide
theorem test_ill_formed_device_op :
    (Instr.deviceOp (.write [0xB9] 2) true).wf = false ∧ (Instr.deviceOp (.read [] 1) false).wf = false := by decide

/-! ### Parameters -/

/-- The informative parameters meet P-config (70 R322). -/
theorem test_informative_wf : Config.informative.wf = true := by decide
/-- R265, R128: the codes. -/
theorem test_codes :
    (resultCode (.ok .unit), resultCode (.err .unrecognizedDevice), resultCode (.err .legacyPageFormat),
      resultCode (.err .timeout)) = (0, -1, -2, -3) ∧
    [Mode.idle, .sendingCommandBytes, .sendingDataBytes, .receivingDataBytes].map modeCode = [0, 1, 2, 3] := by decide

/-! ### Transfer Engine (95_test_vectors.md section 2.1) -/

/-- V-TE-1, the call. -/
theorem test_te_write_call :
    after (exec (.teWrite 4 2) { calm with tx := [0x82, 0, 1, 0, 0xAA, 0x55, 0, 0] })
      (fun s => (s.desc, s.bus.state, s.fg)) =
      some (⟨.sendingCommandBytes, 0x82, 1, 5, 0, 0, 3⟩, .shifting 0x82, .asleep) := by decide
/-- V-TE-6, V-TE-7. -/
theorem test_te_write_faults :
    [exec (.teWrite 4 16) (withCfg { tiny with bufCap := 20 }), exec (.teWrite 4 17) (withCfg { tiny with bufCap := 20 }),
      exec (.teWrite 0 3) calm].map faultsOf = [some [], some [.bufferOverflow], some [.emptyFrame]] := by decide
/-- V-TE-2, the call. -/
theorem test_te_read_call :
    after (exec (.teRead 1 3) { calm with tx := [0x9F, 0, 0, 0, 0, 0, 0, 0] }) (fun s => (s.desc, s.bus.state)) =
      some (⟨.sendingCommandBytes, 0x9F, 1, 0, 0, 3, 0⟩, .shifting 0x9F) := by decide
/-- V-TE-6. -/
theorem test_te_read_faults :
    [(5, 20), (5, 21), (21, 0)].map (fun p => faultsOf (exec (.teRead p.1 p.2) (withCfg { tiny with bufCap := 20 }))) =
      [some [], some [.bufferOverflow], some [.bufferOverflow]] := by decide
/-- V-TE-1, irq 4: the first payload byte. -/
theorem test_byte_complete_payload :
    after (exec .byteComplete (waiting [0x82, 0, 1, 0, 0xAA, 0x55] ⟨.sendingCommandBytes, 0x82, 4, 2, 0, 0, 0⟩))
      (fun s => (s.desc, s.bus.state, s.bus.irqPending)) =
      some (⟨.sendingDataBytes, 0x82, 5, 1, 0, 0, 0⟩, .shifting 0xAA, false) := by decide
/-- V-TE-2, irq 4: the last response byte. -/
theorem test_byte_complete_response :
    after (exec .byteComplete (waiting [0x9F] ⟨.receivingDataBytes, 0x9F, 1, 0, 2, 1, 0⟩))
      (fun s => (s.desc, s.rx.take 4, s.fg)) =
      some (⟨.idle, 0x9F, 1, 0, 3, 0, 0⟩, [0, 0, 0x55, 0], .running) := by decide
/-- V-TE-2: during the first exchange after the opcode the device drives its manufacturer byte. -/
theorem test_bus_step_identify :
    after (exec .busStep { received [0x9F] with bus := ⟨.shifting 0xFF, false, 0⟩ })
      (fun s => (s.bus, s.dev.frame)) = some (⟨.ready, true, 0x1F⟩, [0x9F, 0xFF]) := by decide

/-! ### Device frames (section 2.3) -/

/-- V-TE-4's shape: the first response byte of a fast read at offset 2. -/
theorem test_device_exchange_fast_read :
    after (exec (.deviceExchange 0xFF) (received [0x0B, 0, 0, 2, 0xFF])) (fun s => (s.bus.rx, s.dev.frame.length)) =
      some (0xF0, 6) := by decide
/-- V-DEV-2: frames rejected at CS rising. -/
theorem test_commit_rejects :
    [([0x00], calm), ([0xC7, 0x94, 0x80, 0x9B], calm), ([0x81, 0x00, 0x03], calm), ([0xB9, 0x00], calm),
      ([0x0B, 0, 0, 0], calm), ([0x9F, 0xFF], busied), ([0x81, 0, 0, 2], asleepDevice), ([0xD7, 0xFF], asleepDevice),
      ([0x0B, 0, 0, 0, 0xFF, 0xFF], legacy), ([0x82, 0, 0, 2, 0xAA], calm), ([0x82, 0, 0, 3, 0xAA, 0x55], calm),
      ([0x81, 0, 0, 3], calm), ([0x81, 0, 0, 0x20], calm), ([0x00], asleepDevice),
      ([0x81, 0, 0, 2], asleepDevice legacy)].map (fun p => faultsOf (exec .commit (received p.1 p.2))) =
      [some [.unknownCommand], some [.unknownCommand], some [.malformedFrame], some [.malformedFrame],
        some [.malformedFrame], some [.deviceBusyCommand], some [.devicePoweredDownCommand],
        some [.devicePoweredDownCommand], some [.legacyAddressing], some [.unmodelledCommand],
        some [.unmodelledCommand], some [.unmodelledCommand], some [.addressOutOfRange], some [.unknownCommand],
        some [.devicePoweredDownCommand]] := by decide
/-- V-DEV-2: frames accepted at CS rising. -/
theorem test_commit_accepts :
    [([0xD7, 0xFF], busied), ([0xAB], asleepDevice), ([0xC7, 0x94, 0x80, 0x9A], legacy), ([], calm)].map
      (fun p => faultsOf (exec .commit (received p.1 p.2))) = [some [], some [], some [], some []] := by decide
theorem test_device_complete : after (exec .deviceComplete busied) (fun s => s.dev.busy) = some false := by decide
theorem test_identify_frame : faultsOf (exec (.identifyFrame 1) busied) = some [.deviceBusyCommand] := by decide
/-- V-DEV-1, with free bits 0x1C: 9D, 9C, 1D, 1C. -/
theorem test_read_status_byte :
    [calm, legacy, busied, busied legacy].map (fun s => statusByte tiny s.dev 0x1C) = [0x9D, 0x9C, 0x1D, 0x1C] := by
  decide
/-- V-FCL-5 at this device's end: offset 31 and two bytes pass it, offset 30 and two do not. -/
theorem test_fast_read_range :
    [exec (.fastReadFrame 31 2) calm, exec (.fastReadFrame 30 2) calm,
      exec (.fastReadFrame 31 2) (withCfg { tiny with readWrap := true })].map faultsOf =
      [some [.readOutOfRange], some [], some []] := by decide
/-- V-DEV-3: F0 under 3C. -/
theorem test_page_program_semantics :
    [calm, withCfg { tiny with programSemantics := .andWithExisting }].map
      (fun s => after (exec (.pageProgramFrame 2 [0x3C, 0x12]) s) fun t => (t.dev.array.read 2, t.dev.busy)) =
      [some (0x3C, true), some (0x30, true)] := by decide
theorem test_page_erase :
    after (exec (.pageEraseFrame 2) calm) (fun s => (s.dev.array.cells, s.dev.array.read 2, s.dev.busy)) =
      some ([], 0xFF, true) := by decide
theorem test_chip_erase_legacy :
    after (exec .chipEraseFrame legacy) (fun s => (s.dev.array.read 3, s.dev.busy)) = some (0xFF, true) := by decide
theorem test_block_erase :
    after (exec (.blockEraseFrame 0) calm) (fun s => s.dev.array.read 2) = some 0xFF ∧
    faultsOf (exec (.blockEraseFrame 0) (withCfg { tiny with admitBufferCmds := false })) =
      some [.unmodelledCommand] := by decide
/-- R234 with R73: of a block that passes the end of a 12-page device, offsets 16 to 23 are erased, 2 and 3 are not. -/
theorem test_block_erase_at_the_end :
    after (exec (.blockEraseFrame 16) { withCfg { tiny with devGeom := ⟨1, 12⟩ } with
        dev := { calm.dev with array := ⟨.erased, [(3, 0x12), (16, 0), (23, 0)]⟩ } })
      (fun s => (s.dev.array.cells, s.dev.busy, s.faults)) = some ([(3, 0x12)], true, []) := by decide
/-- R235: three bytes from entry 1 of a two-byte page buffer. -/
theorem test_buffer_write_wraps :
    after (exec (.bufferWriteFrame 5 [0x31, 0x32, 0x33]) calm) (fun s => (s.dev.pagebuf, s.dev.busy)) =
      some ([0x32, 0x33], false) := by decide
/-- R236: page-buffer bytes with wrap-around. -/
theorem test_buffer_read_output :
    deviceOutput (received [0xD4, 0, 0, 1, 0xFF, 0xFF] { calm with dev := { calm.dev with pagebuf := [0x31, 0x32] } }) 0 =
      0x31 := by decide
theorem test_buffer_to_main :
    after (exec (.bufferToMainFrame 2) { calm with dev := { calm.dev with pagebuf := [0x31, 0x32] } })
      (fun s => (s.dev.array.cells, s.dev.busy)) = some ([(2, 0x31), (3, 0x32)], true) := by decide
theorem test_main_to_buffer :
    after (exec (.mainToBufferFrame 2) calm) (fun s => (s.dev.pagebuf, s.dev.busy)) = some ([0xF0, 0x12], true) := by
  decide
theorem test_power_down_frame : after (exec .powerDownFrame calm) (fun s => s.dev.power) = some .poweredDown := by decide
/-- V-DEV-5, and the wake-up. -/
theorem test_resume_frame :
    after (exec .resumeFrame calm) id = some calm ∧
    after (exec .resumeFrame asleepDevice) (fun s => s.dev.power) = some .active := by decide
theorem test_page_size_pow2_frame :
    after (exec .pageSizePow2Frame legacy) (fun s => (s.dev.pow2Pending, s.dev.busy, s.dev.format)) =
      some (true, true, .legacy) := by decide

/-! ### Flash Command Layer (section 2.2) -/

theorem test_issue_write_fills :
    after (exec (.issueWrite [0x81, 0, 3, 0] 4) { standing (.issueWrite [0x81, 0, 3, 0] 4) 1 with tx := [1, 2, 3, 4, 5, 6, 7, 8] })
      (fun s => s.tx) = some [0x81, 0, 3, 0, 5, 6, 7, 8] := by decide
/-- V-FCL-4: a frame longer than the buffer. -/
theorem test_issue_write_overflow :
    faultsOf (exec (.issueWrite (List.replicate 9 0) 4) (standing (.issueWrite (List.replicate 9 0) 4) 1)) =
      some [.bufferOverflow] := by decide
theorem test_issue_read_returns :
    after (exec (.issueRead [0xD7] 2) { standing (.issueRead [0xD7] 2) 5 with rx := [9, 8, 7, 6, 5, 4, 3, 2] })
      (fun s => s.fcl.result) = some (some (.ok (.bytes [9, 8]))) := by decide
/-- V-FCL-2: the bound is reached at the second of two polls, not at the first. -/
theorem test_wait_ready_bound :
    [1, 2].map (fun n => after (exec .waitReady
      (withCfg { tiny with waitReadyBound := some 2 } (standing .waitReady 4 { polls := n }))) fun s => s.fcl.result) =
      [some none, some (some (.err .timeout))] := by decide
theorem test_wait_ready_ready :
    after (exec .waitReady (standing .waitReady 3 { status := 0x9D })) (fun s => s.fcl.result) =
      some (some (.ok (.byte 0x9D))) := by decide
/-- V-SRC-1. -/
theorem test_identify_geometry :
    after (exec .identify (standing .identify 4 { preset := some 2 })) (fun s => (s.fcl.geometry, s.fcl.result)) =
      some (some ⟨8, 2048⟩, some (.ok (.geometry ⟨8, 2048⟩))) := by decide
/-- V-SRC-1b. -/
theorem test_decode_id_table :
    [[0x1F, 0x11, 0], [0x1F, 0x19, 0], [0x1F, 0x21, 0], [0x1F, 0x29, 0], [0x1F, 0x31, 0], [0x1F, 0x39, 0],
      [0x1F, 0x41, 0xFF], [0x1E, 0x21, 0], [0x1F, 0x22, 0], [0x1F, 0x49, 0], [0x1F, 0x01, 0]].map
      (decodeIdBytes tiny) =
      [some 0, some 1, some 2, some 3, some 4, some 5, some 6, none, none, none, none] := by decide
theorem test_decode_id :
    after (exec (.decodeId [0x1F, 0x21, 0]) calm) (fun s => s.fcl.result) = some (some (.ok (.preset (some 2)))) := by
  decide
/-- V-FCL-1. -/
theorem test_page_offset :
    [(⟨8, 2048⟩, 3), (⟨8, 2048⟩, 2047), (⟨9, 4096⟩, 4095), (⟨10, 8192⟩, 8191), (⟨8, 512⟩, 511)].map
      (fun (p : Geometry × Nat) => after (exec (.pageOffset p.2) { calm with fcl := { calm.fcl with geometry := some p.1 } })
        fun s => s.fcl.result) =
      [0x300, 0x07FF00, 0x1FFE00, 0x7FFC00, 0x01FF00].map fun n => some (some (.ok (.offset n))) := by decide
theorem test_page_offset_faults :
    faultsOf (exec (.pageOffset 2048) { calm with fcl := { calm.fcl with geometry := some ⟨8, 2048⟩ } }) =
      some [.pageOutOfRange] ∧ faultsOf (exec (.pageOffset 0) calm) = some [.geometryUnset] := by decide
/-- V-FCL-3: PostOperation waits after the operation, PreOperation before it. -/
theorem test_device_op_policies :
    [BusyPolicy.preOperation, .postOperation].map (fun p => [2, 4].map fun n =>
      after (exec (.deviceOp (.write [0x81, 0, 3, 0] 4) true) (withCfg { tiny with busyPolicy := p }
        (standing (.deviceOp (.write [0x81, 0, 3, 0] 4) true) n))) fun s => s.fcl.pc.map (·.op == .waitReady)) =
      [[some (some true), some (some false)], [some (some false), some (some true)]] := by decide
/-- V-FCL-3: the frame of `erase_page(3)`. -/
theorem test_erase_page_frame :
    after (exec (.erasePage 3) (standing (.erasePage 3) 2 { off := 0x300 })) (fun s => s.fcl.pc) =
      some (some ⟨.deviceOp (.write [0x81, 0, 3, 0] 4) true, 1⟩) := by decide
/-- V-FCL-7. -/
theorem test_erase_chip_frame :
    after (exec .eraseChip (standing .eraseChip 2)) (fun s => s.fcl.pc) =
      some (some ⟨.deviceOp (.write [0xC7, 0x94, 0x80, 0x9A] 4) true, 1⟩) := by decide
/-- V-FCL-4's shape: a buffer one byte short of the page; no geometry. -/
theorem test_program_page_faults :
    faultsOf (exec (.programPage 3 [0])
      { calm with fcl := { calm.fcl with geometry := some ⟨1, 16⟩ } }) = some [.badBufferLength] ∧
    faultsOf (exec (.programPage 3 []) calm) = some [.geometryUnset] := by decide
/-- V-FCL-6: `erase_blocks(7, 0)`; unit 2 of `erase_blocks(2046, 3)` is page 2048. -/
theorem test_erase_blocks :
    after (exec (.eraseBlocks 7 0) (standing (.eraseBlocks 7 0) 2)) (fun s => s.fcl.result) =
      some (some (.ok (.count 0))) ∧
    after (exec (.eraseBlocks 2046 3) (standing (.eraseBlocks 2046 3) 3 { index := 2 })) (fun s => s.fcl.pc) =
      some (some ⟨.erasePage 2048, 1⟩) := by decide
/-- V-FCL-6's shape: unit 1 programs the second page's bytes at the second page. -/
theorem test_program_blocks_slice :
    after (exec (.programBlocks 4 2 [1, 2, 3, 4]) (standing (.programBlocks 4 2 [1, 2, 3, 4]) 3 { index := 1, pageSize := 2 }))
      (fun s => s.fcl.pc) = some (some ⟨.programPage 5 [3, 4], 1⟩) := by decide
/-- V-FCL-5. -/
theorem test_read_bytes :
    faultsOf (exec (.readBytes 0x1000000 1) calm) = some [.readOutOfRange] ∧
    after (exec (.readBytes 0x10 0) (standing (.readBytes 0x10 0) 2)) (fun s => s.fcl.pc) =
      some (some ⟨.deviceOp (.read [0x0B, 0, 0, 0x10, 0xFF] 0) false, 1⟩) := by decide
theorem test_power_down : after (exec .powerDown calm) (fun s => s.fcl.pc) = some (some ⟨.issueWrite [0xB9] 1, 1⟩) := by
  decide
theorem test_resume : after (exec .resume calm) (fun s => s.fcl.pc) = some (some ⟨.issueWrite [0xAB] 1, 1⟩) := by decide
theorem test_reprogram_page_size :
    after (exec .reprogramPageSize calm) (fun s => s.fcl.pc) =
      some (some ⟨.issueWrite [0x3D, 0x2A, 0x80, 0xA6] 4, 1⟩) := by decide
/-- Programs 1 and 4: a legacy status byte leads to the reformat, a power-of-two one does not. -/
theorem test_init_layout :
    [0x9C, 0x9D].map (fun b => after (exec .init (standing .init 5 { status := b })) fun s => s.fcl.pc) =
      [some (some ⟨.reprogramPageSize, 1⟩), some (some ⟨.init, 6⟩)] := by decide

/-! ### The step -/

/-- Program 1: reset starts at `init` step 1, and no frame has been sent. -/
theorem test_reset_runs_init :
    after (step (State.resetAt tiny)) (fun s => (s.fcl.pc, s.cs, s.faults)) = some (some ⟨.init, 2⟩, .high, []) := by
  decide
/-- 60 R268. -/
theorem test_fault_stops : step { calm with faults := [.emptyFrame] } = .fault (.stopped .emptyFrame) := rfl
/-- 70 R321: a call is started only when no operation runs; one that cannot start yet stays listed. -/
theorem test_host_call :
    after (step { calm with env := [.startCall], calls := [.erasePage 3, .resume] }) (fun s => (s.fcl.pc, s.calls)) =
      some (some ⟨.erasePage 3, 1⟩, [.resume]) ∧
    after (step { standing .init 2 with env := [.startCall], calls := [.erasePage 3] })
      (fun s => (s.fcl.pc, s.calls)) = some (some ⟨.init, 2⟩, [.erasePage 3]) := by decide
/-- 70 R320: the host starts no call after an error, and the run then ends with the results in order. -/
theorem test_no_call_after_error :
    after (step { failed with env := [.startCall] }) (fun s => (s.fcl.pc, s.calls, (observe s).results)) =
      some (none, [.erasePage 3], [.ok .unit, .err .timeout]) ∧ RunEnded failed :=
  ⟨by decide, .inr ⟨.timeout, rfl⟩, by decide⟩
/-- V-DEV-4: a completed reformat makes the layout power-of-two. -/
theorem test_power_cycle_format :
    after (step { legacy with env := [.powerCycle [.resume]], dev := { legacy.dev with pow2Pending := true } })
      (fun s => (s.dev.format, s.dev.pow2Pending, s.fcl.pc, s.calls)) =
      some (.pow2, false, some ⟨.init, 1⟩, [.resume]) := by decide
/-- 30 R120. -/
theorem test_configuration_refused :
    step (withCfg { tiny with opcStatus := 0x9F }) = .refused .illFormedConfiguration := rfl

/-! ### Witnesses: concrete states and operands that meet the hypotheses of each statement, clause by clause -/

/-- Standing at a step, with and without a value returned by a called operation. -/
theorem witness_standing (i : Instr) (n : Nat) (r : Result) :
    AtOp i n (standing i n) ∧ Returned i n r (standing i n { ret := some r }) := ⟨⟨rfl, rfl, rfl⟩, rfl, rfl, rfl⟩

theorem inv_calm : Inv calm where
  txLength := rfl
  rxLength := rfl
  descriptor := ⟨by decide, by decide, by decide, by decide, by decide, by decide, by decide⟩
  transfer := ⟨by decide, by decide⟩
  frameWhileDeselected := fun _ => rfl
  array := by decide
  pagebufLength := rfl
  stack := rfl

theorem inv_standing (i : Instr) (n : Nat) (h : callRank i ≤ 4) : Inv (standing i n) where
  txLength := rfl
  rxLength := rfl
  descriptor := inv_calm.descriptor
  transfer := ⟨fun _ => ⟨rfl, rfl, rfl⟩, fun h => absurd rfl h⟩
  frameWhileDeselected := fun _ => rfl
  array := inv_calm.array
  pagebufLength := rfl
  stack := ⟨h, trivial⟩

theorem inv_received (l : List Byte) : Inv (received l) where
  txLength := rfl
  rxLength := rfl
  descriptor := inv_calm.descriptor
  transfer := ⟨fun _ => ⟨rfl, rfl, rfl⟩, fun h => absurd rfl h⟩
  frameWhileDeselected := fun h => nomatch h
  array := inv_calm.array
  pagebufLength := rfl
  stack := rfl

theorem witness_EncodedFramesDecodeBack :
    tiny.firstBytesDistinct = true ∧ Config.informative.firstBytesDistinct = true ∧
    (Instr.fastReadFrame 0xFFFFFF 0).isFrame = true ∧ (Instr.pageProgramFrame 0 []).isFrame = true := by decide

theorem witness_UnknownFramesFault :
    tiny.devPresent = true ∧ tiny.firstBytesDistinct = true ∧
    ∀ p ∈ ([(0x00, []), (0xC7, [0x95]), (0xC7, [0x94, 0x80, 0x9B]), (0x3D, [0x2A, 0x81])] : List (Byte × List Byte)),
      (received (p.1 :: p.2)).dev.frame = p.1 :: p.2 ∧
      (p.1 ∉ tiny.firstBytes ∨ (p.1 = tiny.seqChipErase.s0 ∧ p.2.take 3 ≠ [0x94, 0x80, 0x9A].take p.2.length) ∨
        (p.1 = tiny.seqPow2.s0 ∧ p.2.take 3 ≠ [0x2A, 0x80, 0xA6].take p.2.length)) := by decide

theorem witness_MalformedFramesFault :
    tiny.devPresent = true ∧ tiny.firstBytesDistinct = true ∧
    (0xB9 : Byte) ∈ [tiny.opcPowerDown, tiny.opcResume] ∧
    (0x50 : Byte) ∈ [tiny.opcPageErase, tiny.opcBlockErase, tiny.opcBufToMainErase, tiny.opcMainToBuf] ∧
    [(0 : Byte), 0].length ≠ 3 ∧ [(0 : Byte), 0, 0, 0].length ≠ 3 ∧
    (0x84 : Byte) ∈ [tiny.opcProgThruBuf, tiny.opcBufWrite] ∧ [(0 : Byte), 0].length < 3 ∧
    (0x0B : Byte) ∈ [tiny.opcFastRead, tiny.opcBufRead] ∧ [(0 : Byte), 0, 0].length < 4 ∧
    (∀ l ∈ ([[0x94, 0x80], [], [0x94, 0x80, 0x9A, 0]] : List (List Byte)),
      (0xC7 : Byte) = tiny.seqChipErase.s0 ∧ l.length ≠ 3 ∧ l.take 3 = [0x94, 0x80, 0x9A].take l.length) ∧
    (∀ l ∈ ([[0x2A, 0x80], [0x2A, 0x80, 0xA6, 0]] : List (List Byte)),
      (0x3D : Byte) = tiny.seqPow2.s0 ∧ l.length ≠ 3 ∧ l.take 3 = [0x2A, 0x80, 0xA6].take l.length) := by decide

theorem witness_StepRunsTheFetchedInstruction :
    calm.cfg.firstBytesDistinct = true ∧ calm.faults = [] ∧
    nextMove (standing .init 1) = some (.agent .fcl) ∧ fetch .fcl (consumeMove (standing .init 1)) = some .init ∧
    fetch .bus { calm with bus := ⟨.shifting 0, false, 0⟩ } = some .busStep ∧
    fetch .handler (waiting [] ⟨.idle, 0, 0, 0, 0, 0, 0⟩) = some .byteComplete ∧
    nextMove { calm with env := [.agent .device] } = some (.agent .device) ∧
    fetch .device busied = some .deviceComplete := by decide

theorem witness_CommitRunsTheDecodedFrame :
    (calm.cfg.devPresent = true ∧ calm.cfg.firstBytesDistinct = true ∧ calm.faults = [] ∧ DeviceIdle calm) ∧
    (received [0xB9]).dev.frame = [calm.cfg.opcPowerDown] ∧ decode tiny [0xB9] = .ok .powerDownFrame ∧
    answers (exec .powerDownFrame { received [0xB9] with dev := { (received [0xB9]).dev with frame := [] } }) = true ∧
    calm.dev.frame = [] := by decide

theorem witness_HostStartsAnOperation :
    ({ calm with env := [Move.startCall] } : State).env = .startCall :: [] ∧
    ({ calm with calls := [Instr.init] } : State).calls = .init :: [] ∧ calm.faults = [] ∧ calm.fg = .running ∧
    calm.fcl.pc = none ∧ calm.fcl.result = none ∧ calm.calls = [] ∧ (standing .init 2).fcl.pc ≠ none ∧
    (waiting [] ⟨.sendingDataBytes, 0, 1, 0, 0, 0, 0⟩).fg = .asleep ∧
    failed.fcl.result = some (.err .timeout) ∧ failed.faults = [] ∧ Instr.init.isTopLevel = true ∧ Instr.init.isFclOp = true ∧
    calm.cfg.firstBytesDistinct = true ∧ after (exec .init calm) (fun t => t.faults) = some [] := by decide

theorem witness_OperationsNeedTheForeground :
    Instr.init.isFclOp = true ∧ (waiting [] ⟨.idle, 0, 0, 0, 0, 0, 0⟩).fg = .asleep ∧
    (standing .waitReady 1).fg = .running ∧ (standing .waitReady 1).fcl.pc = some ⟨.waitReady, 1⟩ ∧
    Instr.waitReady ≠ Instr.init := by decide

theorem witness_FaultsArePreciseAndSticky :
    faultsOf (exec (.teWrite 0 0) calm) = some [.emptyFrame] ∧ calm.faults = [] ∧
    faultsOf (exec (.teWrite 1 0) { calm with faults := [.readOutOfRange] }) = some [.readOutOfRange] ∧
    ({ calm with faults := [FaultName.emptyFrame] } : State).faults ≠ [] := by decide

theorem witness_ParametersNeverChange :
    answers (exec .init (standing .init 1)) = true ∧ answers (step (standing .init 1)) = true := by decide

/-- 260 bytes just fit a 256-byte page and its four command bytes. -/
theorem witness_ResetLeavesTheSpecsValues :
    let c := { Config.informative with bufCap := 260 }
    c.wf = true ∧ c.devPresent = true ∧
      ∀ op ∈ [Instr.programPage 3 [], .readBytes 0 260, .eraseChip], op.isTopLevel = true ∧ CapacityFor c op := by
  have hg : ∀ g, identifiedGeometry { Config.informative with bufCap := 260 } = some g → 4 + g.pageSize ≤ 260 := by
    intro g h
    cases h
    decide
  refine ⟨by decide, by decide, fun op h => ?_⟩
  simp only [List.mem_cons, List.not_mem_nil, or_false] at h
  obtain rfl | rfl | rfl := h
  · exact ⟨rfl, hg⟩
  · exact ⟨rfl, Nat.le_refl 260⟩
  · exact ⟨rfl, trivial⟩

theorem witness_EveryStepKeepsTheInvariant :
    Inv (standing .init 1) ∧ answers (step (standing .init 1)) = true ∧ Inv calm ∧ answers (step calm) = true :=
  ⟨inv_standing _ _ (by decide), by decide, inv_calm, by decide⟩

theorem witness_ModeChangesOnlyAlongItsEdges :
    after (exec (.teWrite 1 0) calm) (fun t => t.desc.mode) = some .sendingCommandBytes ∧
    after (exec .byteComplete (waiting [0] ⟨.sendingCommandBytes, 0, 1, 0, 0, 1, 0⟩)) (fun t => t.desc.mode) =
      some .receivingDataBytes ∧
    after (exec .byteComplete (waiting [0] ⟨.sendingCommandBytes, 0, 1, 0, 0, 0, 0⟩)) (fun t => t.desc.mode) =
      some .idle := by decide

theorem witness_RxIsWrittenOnlyByTheReceivingHandler :
    after (exec .byteComplete (waiting [0] ⟨.receivingDataBytes, 0, 1, 0, 0, 1, 0⟩)) (fun t => decide (t.rx = calm.rx)) =
      some false := by decide

theorem witness_ChipSelectIsDrivenByTheFcl :
    after (exec (.issueWrite [0] 1) (standing (.issueWrite [0] 1) 2)) (fun t => t.cs) = some .low ∧
    (standing (.issueWrite [0] 1) 2).cs = .high ∧
    after (exec .init (received [] (standing .init 1))) (fun t => t.cs) = some .high := by decide

theorem witness_GeometryIsWrittenByIdentifyAlone :
    after (exec .identify (standing .identify 4 { preset := some 0 })) (fun t => t.fcl.geometry) = some (some ⟨8, 512⟩) ∧
    (standing .identify 4).fcl.geometry = none := by decide

theorem witness_ArrayChangesOnlyByStoringFrames :
    answers (exec (.teWrite 1 0) calm) = true ∧ answers (exec (.pageEraseFrame 2) calm) = true := by decide

theorem witness_TraceIsNeverConsulted : answers (exec .eraseChip (standing .eraseChip 1)) = true := by decide

theorem witness_TeWriteStartsATransfer :
    calm.desc.mode = .idle ∧ 1 + 7 ≤ calm.cfg.bufCap ∧ 8 + 0 ≤ calm.cfg.bufCap ∧ calm.tx[0]? = some 0 ∧
    calm.bus.state = .ready ∧ (waiting [] ⟨.sendingDataBytes, 0, 1, 0, 0, 0, 0⟩).desc.mode ≠ .idle ∧
    calm.cfg.bufCap < 1 + 8 ∧ 0 < calm.tx.length ∧
    ({ calm with bus := ⟨.shifting 0, false, 0⟩ } : State).bus.state ≠ .ready := by decide

theorem witness_TeReadStartsATransfer :
    calm.desc.mode = .idle ∧ 8 ≤ calm.cfg.bufCap ∧ calm.cfg.bufCap < 9 ∧ calm.tx[0]? = some 0 ∧
    calm.bus.state = .ready ∧ (waiting [] ⟨.receivingDataBytes, 0, 1, 0, 0, 1, 0⟩).desc.mode ≠ .idle ∧
    0 < calm.tx.length ∧ ({ calm with bus := ⟨.shifting 0, false, 0⟩ } : State).bus.state ≠ .ready := by decide

theorem witness_HandlerInTheCommandPhase :
    ∀ d ∈ [(⟨.sendingCommandBytes, 0, 1, 1, 0, 0, 1⟩ : Descriptor), ⟨.sendingCommandBytes, 0, 1, 0, 0, 1, 0⟩,
        ⟨.sendingCommandBytes, 0, 1, 1, 0, 0, 0⟩, ⟨.sendingCommandBytes, 0, 1, 0, 0, 0, 0⟩],
      (waiting [0, 7] d).bus.irqPending = true ∧ (waiting [0, 7] d).fg = .asleep ∧
      (waiting [0, 7] d).bus.state = .ready ∧ (waiting [0, 7] d).desc.mode = .sendingCommandBytes ∧
      (waiting [0, 7] d).tx[d.txCursor]? = some 7 := by decide

theorem witness_HandlerInTheDataPhases :
    ∀ d ∈ [(⟨.sendingDataBytes, 0, 1, 1, 0, 0, 0⟩ : Descriptor), ⟨.sendingDataBytes, 0, 1, 0, 0, 0, 0⟩,
        ⟨.receivingDataBytes, 0, 1, 0, 6, 2, 0⟩, ⟨.receivingDataBytes, 0, 1, 0, 7, 1, 0⟩],
      (waiting [0, 7] d).bus.irqPending = true ∧ (waiting [0, 7] d).fg = .asleep ∧
      (waiting [0, 7] d).bus.state = .ready ∧ (waiting [0, 7] d).tx[d.txCursor]? = some 7 ∧
      d.rxCursor < (waiting [0, 7] d).rx.length := by decide

theorem witness_HandlerOutsideATransfer :
    (waiting [] ⟨.idle, 0, 0, 0, 0, 0, 0⟩).desc.mode = .idle ∧
    (waiting [] ⟨.idle, 0, 0, 0, 0, 0, 0⟩).bus.irqPending = true ∧
    (waiting [] ⟨.idle, 0, 0, 0, 0, 0, 0⟩).fg = .asleep ∧ calm.bus.irqPending = false ∧ calm.fg = .running ∧
    ({ calm with bus := ⟨.shifting 0, false, 0⟩ } : State).bus.state ≠ .ready := by decide

theorem witness_BusStepExchangesOneByte :
    ({ calm with bus := ⟨.shifting 0x9F, false, 0⟩ } : State).bus.state = .shifting 0x9F ∧ calm.cs = .high ∧
    (received []).cs = .low := by decide

theorem witness_DeviceExchangeAppendsTheByte : calm.cs = .high ∧ (received []).cs = .low := by decide

theorem witness_DeviceOutputByFrameKind :
    asleepDevice.dev.power = .poweredDown ∧ calm.dev.frame = [] ∧ calm.dev.power = .active ∧
    (received [0x9F]).dev.frame = tiny.opcIdentify :: [] ∧ (received [0xD7, 0]).dev.frame = tiny.opcStatus :: [0] ∧
    (received [0x0B, 0, 0, 31, 0xFF]).dev.frame = tiny.opcFastRead :: 0 :: 0 :: 31 :: 0xFF :: [] ∧
    (received [0xD4, 0, 0, 1, 0xFF]).dev.frame = tiny.opcBufRead :: 0 :: 0 :: 1 :: 0xFF :: [] ∧
    (0x0B : Byte) ∉ [tiny.opcIdentify, tiny.opcStatus] ∧ [(0 : Byte), 0, 0].length < 4 ∧
    (0x82 : Byte) ∉ [tiny.opcIdentify, tiny.opcStatus, tiny.opcFastRead, tiny.opcBufRead] := by decide

theorem witness_StatusByteReportsTheDevice :
    tiny.readyBit ≠ tiny.pagesizeBit ∧ (3 : Fin 8) ≠ tiny.readyBit ∧ (3 : Fin 8) ≠ tiny.pagesizeBit := by decide

theorem witness_DeviceCompleteClearsBusy : busied.dev.busy = true ∧ calm.dev.busy = false := by decide

theorem witness_ReadingFramesHaveNoEffect :
    DeviceIdle calm ∧ busied.dev.power = .active ∧ calm.dev.format = .pow2 ∧
    (30 : Offset).toNat + 2 ≤ deviceCap calm ∧ calm.cfg.admitBufferCmds = true := by decide

theorem witness_PageProgramWritesThePage :
    PageFrameTaken 30 calm ∧ (30 : Offset).toNat % devicePage calm = 0 ∧ [(1 : Byte), 2].length = devicePage calm ∧
    PageFrameTaken 31 calm ∧ (31 : Offset).toNat % devicePage calm ≠ 0 ∧ [(1 : Byte)].length ≠ devicePage calm := by
  decide

theorem witness_PageEraseErasesThePage :
    PageFrameTaken 30 calm ∧ (30 : Offset).toNat % devicePage calm = 0 ∧ PageFrameTaken 31 calm ∧
    (31 : Offset).toNat % devicePage calm ≠ 0 := by decide

theorem witness_ChipEraseErasesEveryByte : DeviceIdle legacy := by decide

/-- The second device has 12 pages: its second block passes the array's end. -/
theorem witness_BlockEraseErasesEightPages :
    PageFrameTaken 16 calm ∧ calm.cfg.admitBufferCmds = true ∧ (16 : Offset).toNat % (8 * devicePage calm) = 0 ∧
    (16 : Offset).toNat + 8 * devicePage calm ≤ deviceCap calm ∧ calm.cfg.devGeom.pageCount % 8 = 0 ∧
    PageFrameTaken 16 (withCfg { tiny with devGeom := ⟨1, 12⟩ }) ∧
    deviceCap (withCfg { tiny with devGeom := ⟨1, 12⟩ }) < (16 : Offset).toNat + 8 * devicePage calm ∧
    PageFrameTaken 2 calm ∧ (2 : Offset).toNat % (8 * devicePage calm) ≠ 0 := by decide

theorem witness_BufferWriteFillsThePageBuffer :
    DeviceIdle calm ∧ calm.dev.format = .pow2 ∧ calm.cfg.admitBufferCmds = true ∧
    calm.dev.pagebuf.length = devicePage calm ∧
    (withCfg { tiny with admitBufferCmds := false }).cfg.admitBufferCmds = false := by decide

theorem witness_PageBufferTransfers :
    PageFrameTaken 30 calm ∧ calm.cfg.admitBufferCmds = true ∧ (30 : Offset).toNat % devicePage calm = 0 ∧
    calm.dev.pagebuf.length = devicePage calm ∧ PageFrameTaken 31 calm ∧
    (31 : Offset).toNat % devicePage calm ≠ 0 := by decide

theorem witness_PowerAndLayoutFrames :
    DeviceIdle calm ∧ busied.dev.busy = true ∧ busied.dev.power = .active ∧ asleepDevice.dev.busy = false ∧
    asleepDevice.dev.power = .poweredDown := by decide

theorem witness_PowerAndBusyRulesOfTheDevice :
    Instr.chipEraseFrame.isFrame = true ∧ Instr.chipEraseFrame ≠ .resumeFrame ∧ asleepDevice.dev.power = .poweredDown ∧
    busied.dev.power = .active ∧ busied.dev.busy = true ∧ Instr.resumeFrame.isFrame = true := by decide

theorem witness_AddressRulesOfTheDevice :
    DeviceIdle legacy ∧ legacy.dev.format = .legacy ∧ DeviceIdle calm ∧ calm.dev.format = .pow2 ∧
    deviceCap calm ≤ (32 : Offset).toNat ∧ calm.cfg.readWrap = false ∧ deviceCap calm < (31 : Offset).toNat + 2 ∧
    (withCfg { tiny with admitBufferCmds := false }).cfg.admitBufferCmds = false := by decide

theorem witness_ProgrammedPageReadsBack :
    ∃ t, exec (.pageProgramFrame 30 [0x31, 0x32]) calm = .next t ∧ PageFrameTaken 30 calm ∧
      (30 : Offset).toNat % devicePage calm = 0 ∧ [(0x31 : Byte), 0x32].length = devicePage calm ∧
      calm.cfg.programSemantics = .overwrite ∧ calm.cfg.firstBytesDistinct = true ∧
      (received [0x0B, 0, 0, 30, 0xFF, 0xFF] t).dev.array = t.dev.array ∧ t.cfg = calm.cfg ∧
      (received [0x0B, 0, 0, 30, 0xFF, 0xFF] t).dev.power = .active ∧ offsetOf 0 0 30 = 30 ∧
      [(0xFF : Byte)].length = 1 ∧ [(0x31 : Byte), 0x32][1]? = some 0x32 ∧
      (received [0x0B, 0, 0, 30, 0xFF, 0xFF] t).dev.frame = calm.cfg.opcFastRead :: 0 :: 0 :: 30 :: 0xFF :: [0xFF] :=
  ⟨_, rfl, by decide⟩

theorem witness_PowerCycleResetsTheBlock :
    calm.cfg.firstBytesDistinct = true ∧ calm.faults = [] ∧
    ({ calm with env := [Move.powerCycle [.resume]] } : State).env = .powerCycle [.resume] :: [] ∧ calm.fg = .running ∧
    calm.fcl.pc = none ∧ calm.dev.busy = false ∧ calm.dev.pow2Pending = false ∧ busied.dev.busy = true := by decide

theorem witness_FclControlMoves :
    (standing .init 1).fcl.pc = some ⟨.init, 1⟩ ∧ (standing .init 1).fcl.stack = [] ∧
    ∃ t, exec .init (standing .init 2) = .next t ∧ t.fcl.pc = some ⟨.resume, 1⟩ ∧
      t.fcl.stack = ⟨⟨.init, 2⟩, {}⟩ :: [] := ⟨rfl, rfl, _, rfl, rfl, rfl⟩

theorem witness_IssueWriteSteps :
    [(0 : Byte), 0, 0, 0, 0, 0, 0, 0].length = calm.cfg.bufCap ∧ calm.cfg.bufCap < (List.replicate 9 (0 : Byte)).length ∧
    calm.desc.mode = .idle ∧ (standing (.issueWrite [0] 1) 2).cs = .high ∧ (received []).cs = .low ∧
    calm.bus.state = .ready ∧ calm.tx[0]? = some 0 ∧ calm.faults = [] ∧
    answers (exec (.teWrite 1 0) (standing (.issueWrite [0] 1) 3)) = true ∧
    answers (exec .commit (received [0xB9] (standing (.issueWrite [0] 1) 4))) = true := by decide

theorem witness_IssueReadSteps :
    [(0 : Byte), 0, 0, 0, 0, 0, 0, 0].length = calm.cfg.bufCap ∧ calm.cfg.bufCap < (List.replicate 9 (0 : Byte)).length ∧
    calm.desc.mode = .idle ∧ (standing (.issueRead [0xD7] 1) 2).cs = .high ∧ calm.bus.state = .ready ∧
    calm.tx[0]? = some 0 ∧ answers (exec (.teRead 1 8) (standing (.issueRead [0xD7] 8) 3)) = true ∧
    answers (exec .commit (received [0xD7, 0xFF] (standing (.issueRead [0xD7] 1) 4))) = true := by decide

theorem witness_WaitReadySteps :
    AtOp .waitReady 3 (standing .waitReady 3 { status := 0x9D }) ∧ isReady tiny 0x9D = true ∧
    isReady tiny 0x1D = false ∧
    AtOp .waitReady 4 (withCfg { tiny with waitReadyBound := some 1 } (standing .waitReady 4 { polls := 1 })) ∧
    tiny.waitReadyBound = none ∧
    Returned .waitReady 2 (.ok (.bytes [0x9D])) (standing .waitReady 2 { ret := some (.ok (.bytes [0x9D])) }) := by
  decide

theorem witness_IdentifySteps :
    decodeIdBytes tiny [] = none ∧ decodeIdBytes tiny [0x1F, 0x41, 0xFF] = some 6 ∧
    AtOp .identify 3 (standing .identify 3 { id := [0x1F, 0x41, 0xFF] }) ∧
    AtOp .identify 4 (standing .identify 4 { preset := some 6 }) ∧
    (standing .identify 4 { preset := some 6 }).fcl.locals.preset = some 6 := by decide

theorem witness_DecodeIdFindsThePreset :
    AtOp (.decodeId [0x1F, 0x41, 0xFF]) 1 (standing (.decodeId [0x1F, 0x41, 0xFF]) 1) ∧
    (∀ j : Fin 7, tiny.capCode[j] = tiny.capCode[(6 : Fin 7)] → j = 6) ∧ 0x1F = tiny.mfrId ∧
    (0x41 : Byte).toNat % 2 ^ tiny.familyWidth = tiny.familyValue ∧
    (0x41 : Byte).toNat / 2 ^ tiny.familyWidth = tiny.capCode[(6 : Fin 7)] ∧
    (0x1E : Byte) ≠ tiny.mfrId ∧ (0x22 : Byte).toNat % 2 ^ tiny.familyWidth ≠ tiny.familyValue ∧
    ∀ k : Fin 7, tiny.capCode[k] ≠ (0x49 : Byte).toNat / 2 ^ tiny.familyWidth := by decide

/-- At rest, with the geometry of the device, and with one whose last page's offset needs more than 24 bits. -/
theorem witness_PageOffsetShiftsTheIndex :
    AtOp (.pageOffset 15) 1 (standing (.pageOffset 15) 1) ∧ (standing (.pageOffset 15) 1).fcl.geometry = none ∧
    (⟨1, 16⟩ : Geometry).pageCount ≤ 16 ∧ 15 < (⟨1, 16⟩ : Geometry).pageCount := by decide

theorem witness_DeviceOpBracket :
    (∀ n ∈ [1, 2, 3, 4, 5, 6], AtOp (.deviceOp (.read [0xD7] 1) true) n (standing (.deviceOp (.read [0xD7] 1) true) n)) ∧
    Returned (.deviceOp (.read [0xD7] 1) true) 5 (.ok .unit)
      (withCfg { tiny with powerPolicy := .sleepBetweenOperations, busyPolicy := .preOperation }
        (standing (.deviceOp (.read [0xD7] 1) true) 5 { ret := some (.ok .unit), phase := 1 })) ∧
    tiny.powerPolicy = .alwaysOn ∧ tiny.busyPolicy = .postOperation := by decide

theorem witness_EraseOperationSteps :
    AtOp (.erasePage 15) 1 (standing (.erasePage 15) 1) ∧ 15 < (⟨1, 16⟩ : Geometry).pageCount ∧
    15 * 2 ^ (⟨1, 16⟩ : Geometry).pageShift < 2 ^ 24 ∧ 16384 < (⟨10, 16385⟩ : Geometry).pageCount ∧
    2 ^ 24 ≤ 16384 * 2 ^ (⟨10, 16385⟩ : Geometry).pageShift ∧ AtOp .eraseChip 1 (standing .eraseChip 1) := by decide

theorem witness_ProgramPageSteps :
    AtOp (.programPage 15 [1, 2]) 1 (standing (.programPage 15 [1, 2]) 1) ∧
    [(1 : Byte), 2].length = 2 ^ (⟨1, 16⟩ : Geometry).pageShift ∧ 15 < (⟨1, 16⟩ : Geometry).pageCount ∧
    15 * 2 ^ (⟨1, 16⟩ : Geometry).pageShift < 2 ^ 24 ∧ 2 ^ 24 ≤ 2 ^ 23 * 2 ^ (⟨1, 2 ^ 24⟩ : Geometry).pageShift ∧
    2 ^ 23 < (⟨1, 2 ^ 24⟩ : Geometry).pageCount := by decide

theorem witness_BlockLoopSteps :
    AtOp (.eraseBlocks 0 1) 1 (standing (.eraseBlocks 0 1) 1) ∧
    AtOp (.programBlocks 0 1 [1, 2]) 2 (standing (.programBlocks 0 1 [1, 2]) 2 { index := 1 }) ∧
    AtOp (.eraseBlocks 0 1) 3 (standing (.eraseBlocks 0 1) 3) ∧
    [(1 : Byte), 2].length = 1 * 2 ^ (⟨1, 16⟩ : Geometry).pageShift ∧
    Returned (.eraseBlocks 0 1) 3 (.ok .unit) (standing (.eraseBlocks 0 1) 3 { ret := some (.ok .unit) }) := by decide

theorem witness_ReadBytesSteps :
    AtOp (.readBytes 0xFFFFFF 1) 1 (standing (.readBytes 0xFFFFFF 1) 1) ∧ 0xFFFFFF < 2 ^ 24 ∧ 2 ^ 24 ≤ 0x1000000 := by
  decide

theorem witness_PowerOperationSteps :
    AtOp .powerDown 1 (standing .powerDown 1) ∧ AtOp .resume 2 (standing .resume 2) ∧
    Returned .reprogramPageSize 1 (.ok .unit) (standing .reprogramPageSize 1 { ret := some (.ok .unit) }) := by decide

theorem witness_InitSteps :
    AtOp .init 1 (standing .init 1) ∧ (standing .init 1).cs = .high ∧
    (AtOp .init 1 (received [] (standing .init 1)) ∧ (received [] (standing .init 1)).cs = .low) ∧
    answers (exec .commit (received [] (standing .init 1))) = true ∧
    Returned .init 3 (.err .unrecognizedDevice) (standing .init 3 { ret := some (.err .unrecognizedDevice) }) ∧
    Returned .init 4 (.ok (.byte 0x9D)) (standing .init 4 { ret := some (.ok (.byte 0x9D)) }) ∧
    isPow2 tiny 0x9D = true ∧ isPow2 tiny 0x9C = false ∧
    Returned .init 5 (.ok .unit) (standing .init 5 { ret := some (.ok .unit), status := 0x9C }) ∧
    AtOp .init 7 (standing .init 7) := by decide

theorem witness_TimeoutIsReturnedAtOnce :
    Returned .waitReady 2 (.err .timeout) (standing .waitReady 2 { ret := some (.err .timeout) }) ∧
    Returned (.deviceOp (.write [0xB9] 1) true) 4 (.err .timeout)
      (standing (.deviceOp (.write [0xB9] 1) true) 4 { ret := some (.err .timeout) }) ∧
    tiny.busyPolicy = .postOperation := by decide

theorem witness_WriteTransferDeliversTheFrame :
    Inv (received []) ∧ (received []).faults = [] ∧ (received []).desc.mode = .idle ∧ (received []).cs = .low ∧
    3 + 5 ≤ (received []).cfg.bufCap ∧ answers (exec (.teWrite 3 5) (received [])) = true :=
  ⟨inv_received _, by decide⟩

theorem witness_ReadTransferCapturesTheResponse :
    Inv (received []) ∧ (received []).faults = [] ∧ (received []).desc.mode = .idle ∧ (received []).cs = .low ∧
    8 ≤ (received []).cfg.bufCap ∧ answers (exec (.teRead 8 8) (received [])) = true :=
  ⟨inv_received _, by decide⟩

theorem witness_IssueWriteHasTheFramesEffect :
    Inv (standing (.issueWrite [0x81, 0, 0, 30] 4) 1) ∧ (standing (.issueWrite [0x81, 0, 0, 30] 4) 1).faults = [] ∧
    (standing (.issueWrite [0x81, 0, 0, 30] 4) 1).cs = .high ∧ tiny.devPresent = true ∧
    AtOp (.issueWrite [0x81, 0, 0, 30] 4) 1 (standing (.issueWrite [0x81, 0, 0, 30] 4) 1) ∧
    [(0x81 : Byte), 0, 0, 30].length ≤ tiny.bufCap ∧ decode tiny [0x81, 0, 0, 30] = .ok (.pageEraseFrame 30) ∧
    faultsOf (exec (.pageEraseFrame 30) (standing (.issueWrite [0x81, 0, 0, 30] 4) 1)) = some [] :=
  ⟨inv_standing _ _ (by decide), by decide⟩

theorem witness_IssuedFastReadReturnsTheArray :
    Inv (standing (.issueRead (readFrame tiny 30) 2) 1) ∧
    AtOp (.issueRead (readFrame tiny 30) 2) 1 (standing (.issueRead (readFrame tiny 30) 2) 1) ∧
    (standing (.issueRead (readFrame tiny 30) 2) 1).cs = .high ∧ DeviceIdle calm ∧ calm.dev.format = .pow2 ∧
    30 + 2 ≤ deviceCap calm ∧ 30 < 2 ^ 24 ∧ 5 ≤ tiny.bufCap ∧ tiny.firstBytesDistinct = true :=
  ⟨inv_standing _ _ (by decide), by decide⟩

end Sys2Proof.Tests
end

section
/-! SUPPORT. The instructions by kind: an FCL operation runs one step of its pseudocode, any other instruction has one
body; and what each kind can do to the state. -/

namespace Sys2Proof.Machine

/-! ### Bodies -/

/-- Step `n` of FCL operation `i` (41 R170); no other instruction has numbered steps. -/
def opStep (i : Instr) (n : Nat) (s : State) : Act State :=
  match i with
  | .issueWrite frame nCmd => issueWriteStep frame nCmd n s
  | .issueRead cmd nResp => issueReadStep cmd nResp n s
  | .waitReady => waitReadyStep n s
  | .identify => identifyStep n s
  | .decodeId id => decodeIdStep id n s
  | .pageOffset pageIndex => pageOffsetStep pageIndex n s
  | .deviceOp body makesBusy => deviceOpStep body makesBusy n s
  | .erasePage pageIndex => erasePageStep pageIndex n s
  | .eraseChip => eraseChipStep n s
  | .programPage pageIndex buffer => programPageStep pageIndex buffer n s
  | .eraseBlocks startBlock count => eraseBlocksStep startBlock count n s
  | .programBlocks startBlock count buffer => programBlocksStep startBlock count buffer n s
  | .readBytes offset length => readBytesStep offset length n s
  | .powerDown => powerDownStep n s
  | .resume => resumeStep n s
  | .reprogramPageSize => reprogramPageSizeStep n s
  | .init => initStep n s
  | _ => noStep

/-- The body of an instruction that is no FCL operation: an engine or agent step, or a frame's effect. -/
def hardwareStep (i : Instr) (s : State) : Act State :=
  match i with
  | .busStep => busExchangeStep s
  | .teWrite nCmd nData => teWriteCall nCmd nData s
  | .teRead nCmd nResp => teReadCall nCmd nResp s
  | .byteComplete => byteCompleteStep s
  | .deviceExchange b => .ok { (exchange b s).2 with bus := { (exchange b s).2.bus with rx := (exchange b s).1 } }
  | .commit => commitFrame s
  | .deviceComplete => deviceCompleteStep s
  | frame => frameEffect frame s

theorem exec_of_isFclOp {i : Instr} (hi : i.isFclOp = true) (s : State) : exec i s = runOp i (opStep i) s := by
  cases i <;> simp only [Instr.isFclOp, reduceCtorEq] at hi <;> rfl

theorem exec_of_not_isFclOp {i : Instr} (hi : i.isFclOp = false) (s : State) :
    exec i s = finish s (hardwareStep i s) := by
  cases i <;> simp only [Instr.isFclOp, reduceCtorEq] at hi <;> rfl

/-- Everything an instruction can answer as a next state: a recorded fault, an operation's step, or a body's end. -/
theorem exec_next {i : Instr} {s t : State} (h : exec i s = .next t) :
    (∃ f, t = recordFault f s) ∨
    (∃ n u, i.isFclOp = true ∧ atStep i s = .ok (n, u) ∧ opStep i n u = .ok t) ∨
    (i.isFclOp = false ∧ hardwareStep i s = .ok t) := by
  cases hi : i.isFclOp with
  | true =>
    rw [exec_of_isFclOp hi] at h
    rcases runOp_next h with ⟨n, u, hu, ht⟩ | hf
    · exact .inr (.inl ⟨n, u, rfl, hu, ht⟩)
    · exact .inl hf
  | false =>
    rw [exec_of_not_isFclOp hi] at h
    rcases finish_next_iff.1 h with ht | ⟨f, -, hf⟩
    · exact .inr (.inr ⟨rfl, ht⟩)
    · exact .inl ⟨f, hf⟩

/-! ### Instructions outside the FCL -/

/-- `t` differs from `s` at most in the descriptor, RX, the foreground, the bus, the device and the draws. -/
def HardwareOnly (s t : State) : Prop :=
  t = { s with desc := t.desc, rx := t.rx, fg := t.fg, bus := t.bus, dev := t.dev, draws := t.draws }

theorem HardwareOnly.cfg {s t : State} (h : HardwareOnly s t) : t.cfg = s.cfg := by rw [h]
theorem HardwareOnly.cs {s t : State} (h : HardwareOnly s t) : t.cs = s.cs := by rw [h]
theorem HardwareOnly.fcl {s t : State} (h : HardwareOnly s t) : t.fcl = s.fcl := by rw [h]

theorem hardwareOnly_startTransfer {c x r : Nat} {s t : State} (h : startTransfer c x r s = .ok t) :
    HardwareOnly s t := by
  obtain ⟨b, -, -, rfl⟩ := startTransfer_ok_iff.1 h
  rfl

theorem hardwareOnly_teWriteCall {a b : Nat} {s t : State} (h : teWriteCall a b s = .ok t) : HardwareOnly s t :=
  hardwareOnly_startTransfer (teWriteCall_ok_iff.1 h).2.2.2

theorem hardwareOnly_teReadCall {a b : Nat} {s t : State} (h : teReadCall a b s = .ok t) : HardwareOnly s t :=
  hardwareOnly_startTransfer (teReadCall_ok_iff.1 h).2.2.2

theorem hardwareOnly_shiftTx {d : Descriptor} {s t : State} (h : shiftTx d s = .ok t) : HardwareOnly s t := by
  obtain ⟨b, -, -, rfl⟩ := shiftTx_ok_iff.1 h
  rfl

theorem hardwareOnly_storeResponseByte {s t : State} (h : storeResponseByte s = .ok t) : HardwareOnly s t := by
  obtain ⟨-, h⟩ := storeResponseByte_ok_iff.1 h
  dsimp only at h
  split at h
  · obtain ⟨-, rfl⟩ := shift_ok_iff.1 h
    rfl
  · subst h
    rfl

/-- Everything the handler's dispatch can do, by the rule it follows (R146 to R151). -/
inductive HandlerCase (s t : State) : Prop where
  | commandByte (hm : s.desc.mode = .sendingCommandBytes) (hc : 0 < s.desc.cmdRemaining)
      (h : shiftCommandByte s = .ok t)
  | response (hm : s.desc.mode = .sendingCommandBytes) (hc : s.desc.cmdRemaining = 0) (hr : 0 < s.desc.rxRemaining)
      (h : beginResponse s = .ok t)
  | firstPayload (hm : s.desc.mode = .sendingCommandBytes) (hc : s.desc.cmdRemaining = 0)
      (hr : s.desc.rxRemaining = 0) (hx : 0 < s.desc.txRemaining) (h : shiftPayloadByte s = .ok t)
  | commandOnly (hm : s.desc.mode = .sendingCommandBytes) (hc : s.desc.cmdRemaining = 0)
      (hr : s.desc.rxRemaining = 0) (hx : s.desc.txRemaining = 0) (h : t = finishTransfer s)
  | payloadByte (hm : s.desc.mode = .sendingDataBytes) (hx : 0 < s.desc.txRemaining) (h : shiftPayloadByte s = .ok t)
  | payloadSent (hm : s.desc.mode = .sendingDataBytes) (hx : s.desc.txRemaining = 0) (h : t = finishTransfer s)
  | responseByte (hm : s.desc.mode = .receivingDataBytes) (h : storeResponseByte s = .ok t)

theorem handleByteComplete_cases {s t : State} (h : handleByteComplete s = .ok t) : HandlerCase s t := by
  unfold handleByteComplete at h
  split at h
  case h_1 => cases h
  case h_2 hm =>
    split_ifs at h with hc hr hx
    · exact .commandByte hm hc h
    · exact .response hm (Nat.eq_zero_of_not_pos hc) hr h
    · exact .firstPayload hm (Nat.eq_zero_of_not_pos hc) (Nat.eq_zero_of_not_pos hr) hx h
    · cases h
      exact .commandOnly hm (Nat.eq_zero_of_not_pos hc) (Nat.eq_zero_of_not_pos hr) (Nat.eq_zero_of_not_pos hx) rfl
  case h_3 hm =>
    split_ifs at h with hx
    · exact .payloadByte hm hx h
    · cases h
      exact .payloadSent hm (Nat.eq_zero_of_not_pos hx) rfl
  case h_4 hm => exact .responseByte hm h

theorem hardwareOnly_handleByteComplete {s t : State} (h : handleByteComplete s = .ok t) : HardwareOnly s t := by
  cases handleByteComplete_cases h with
  | commandByte _ _ h | firstPayload _ _ _ _ h | payloadByte _ _ h => exact hardwareOnly_shiftTx h
  | response _ _ _ h =>
    obtain ⟨-, rfl⟩ := shift_ok_iff.1 h
    rfl
  | commandOnly _ _ _ _ h | payloadSent _ _ h => subst h; rfl
  | responseByte _ h => exact hardwareOnly_storeResponseByte h

theorem hardwareOnly_commitFrame {s t : State} (h : commitFrame s = .ok t) : HardwareOnly s t := by
  rw [(commitFrame_ok h).1]
  rfl

theorem hardwareOnly_frameEffect {i : Instr} {s t : State} (h : frameEffect i s = .ok t) : HardwareOnly s t := by
  rw [(frameEffect_ok h).1]
  rfl

/-- No instruction outside the FCL touches the parameters, TX, chip select, the FCL or the trace. -/
theorem hardwareOnly_hardwareStep {i : Instr} {s t : State} (h : hardwareStep i s = .ok t) : HardwareOnly s t := by
  cases i
  case busStep =>
    obtain ⟨b, -, rfl⟩ := busExchangeStep_ok_iff.1 h
    rw [exchange_state]
    rfl
  case teWrite => exact hardwareOnly_teWriteCall h
  case teRead => exact hardwareOnly_teReadCall h
  case byteComplete =>
    rw [hardwareOnly_handleByteComplete (byteCompleteStep_ok_iff.1 h).2]
    rfl
  case deviceExchange =>
    cases h
    rw [exchange_state]
    rfl
  case commit => exact hardwareOnly_commitFrame h
  case deviceComplete =>
    obtain ⟨-, h⟩ := check_bind_ok_iff.1 h
    cases h
    rfl
  all_goals
    simp only [hardwareStep] at h
    exact hardwareOnly_frameEffect h

/-! ### Operations of the FCL -/

/-- What a step of `issue_write` or `issue_read` does to the state before the FCL's control moves on (R172, R173). -/
inductive TransferStep (s : State) : State → Prop where
  | rest : TransferStep s s
  | fill (frame : List Byte) (hl : frame.length ≤ s.cfg.bufCap) (hm : s.desc.mode = .idle) :
      TransferStep s (fillTx frame s)
  | select : TransferStep s (selectDevice s)
  | write {nCmd nData : Nat} {t : State} (h : teWriteCall nCmd nData s = .ok t) : TransferStep s t
  | read {nCmd nResp : Nat} {t : State} (h : teReadCall nCmd nResp s = .ok t) : TransferStep s t
  | deselect {t : State} (h : deselectDevice s = .ok t) : TransferStep s t

theorem deselectDevice_eq {s t : State} (h : deselectDevice s = .ok t) :
    t = { s with cs := .high, dev := t.dev } := by
  rcases deselectDevice_ok_iff.1 h with ⟨-, u, hu, rfl⟩ | ⟨hcs, rfl⟩
  · rw [(commitFrame_ok hu).1]
  · rw [← hcs]

theorem TransferStep.cfg {s t : State} (h : TransferStep s t) : t.cfg = s.cfg := by
  cases h with
  | rest | fill => rfl
  | select => simp
  | write h => exact (hardwareOnly_teWriteCall h).cfg
  | read h => exact (hardwareOnly_teReadCall h).cfg
  | deselect h => rw [deselectDevice_eq h]

theorem TransferStep.fcl {s t : State} (h : TransferStep s t) : t.fcl = s.fcl := by
  cases h with
  | rest | fill => rfl
  | select => simp
  | write h => exact (hardwareOnly_teWriteCall h).fcl
  | read h => exact (hardwareOnly_teReadCall h).fcl
  | deselect h => rw [deselectDevice_eq h]

theorem fillStep_ok_iff {frame : List Byte} {s t : State} :
    fillStep frame s = .ok t ↔
      frame.length ≤ s.cfg.bufCap ∧ s.desc.mode = .idle ∧ t = goto 2 (fillTx frame s) := by
  simp only [fillStep, check_bind_ok_iff, require_ok_iff, requireOwnership_ok_iff, pure, Except.pure,
    Except.ok.injEq]
  simp only [eq_comm]

/-- What each step of `issue_write` does, and where the FCL goes. -/
theorem issueWriteStep_ok {frame : List Byte} {nCmd n : Nat} {s t : State}
    (h : issueWriteStep frame nCmd n s = .ok t) :
    ∃ u, TransferStep s u ∧ ((∃ m, t = goto m u) ∨ ∃ r, t = returnOp r u) := by
  unfold issueWriteStep at h
  split at h
  · obtain ⟨hl, hm, rfl⟩ := fillStep_ok_iff.1 h
    exact ⟨_, .fill frame hl hm, .inl ⟨2, rfl⟩⟩
  · cases h
    exact ⟨_, .select, .inl ⟨3, rfl⟩⟩
  · obtain ⟨-, h⟩ := check_bind_ok_iff.1 h
    obtain ⟨u, hu, h⟩ := bind_ok_iff.1 h
    cases h
    exact ⟨u, .write hu, .inl ⟨4, rfl⟩⟩
  · obtain ⟨u, hu, h⟩ := bind_ok_iff.1 h
    cases h
    exact ⟨u, .deselect hu, .inl ⟨5, rfl⟩⟩
  · cases h
    exact ⟨s, .rest, .inr ⟨_, rfl⟩⟩
  · cases h

/-- What each step of `issue_read` does, and where the FCL goes. -/
theorem issueReadStep_ok {cmd : List Byte} {nResp n : Nat} {s t : State} (h : issueReadStep cmd nResp n s = .ok t) :
    ∃ u, TransferStep s u ∧ ((∃ m, t = goto m u) ∨ ∃ r, t = returnOp r u) := by
  unfold issueReadStep at h
  split at h
  · obtain ⟨hl, hm, rfl⟩ := fillStep_ok_iff.1 h
    exact ⟨_, .fill cmd hl hm, .inl ⟨2, rfl⟩⟩
  · cases h
    exact ⟨_, .select, .inl ⟨3, rfl⟩⟩
  · obtain ⟨u, hu, h⟩ := bind_ok_iff.1 h
    cases h
    exact ⟨u, .read hu, .inl ⟨4, rfl⟩⟩
  · obtain ⟨u, hu, h⟩ := bind_ok_iff.1 h
    cases h
    exact ⟨u, .deselect hu, .inl ⟨5, rfl⟩⟩
  · obtain ⟨-, h⟩ := check_bind_ok_iff.1 h
    cases h
    exact ⟨s, .rest, .inr ⟨_, rfl⟩⟩
  · cases h

/-- What step `n` of operation `i` does to the state before the FCL's control moves on: a transfer's steps in
`issue_write` and `issue_read`, the raised chip select in `init` step 1, the geometry in `identify` step 4. -/
inductive OpEffect (i : Instr) (n : Nat) (s : State) : State → Prop where
  | control : OpEffect i n s s
  | issueWrite {frame : List Byte} {nCmd : Nat} {t : State} (hi : i = .issueWrite frame nCmd)
      (h : TransferStep s t) : OpEffect i n s t
  | issueRead {cmd : List Byte} {nResp : Nat} {t : State} (hi : i = .issueRead cmd nResp)
      (h : TransferStep s t) : OpEffect i n s t
  | deselect {t : State} (hi : i = .init) (hn : n = 1) (h : deselectDevice s = .ok t) : OpEffect i n s t
  | identified (g : Geometry) (hi : i = .identify) (hn : n = 4) :
      OpEffect i n s { s with fcl := { s.fcl with geometry := some g } }

theorem OpEffect.cfg {i : Instr} {n : Nat} {s t : State} (h : OpEffect i n s t) : t.cfg = s.cfg := by
  cases h with
  | control | identified => rfl
  | issueWrite _ h | issueRead _ h => exact h.cfg
  | deselect _ _ h => rw [deselectDevice_eq h]

theorem ControlOnly.cfg {s t : State} (h : ControlOnly s t) : t.cfg = s.cfg := by rw [h]
theorem ControlOnly.cs {s t : State} (h : ControlOnly s t) : t.cs = s.cs := by rw [h]
theorem ControlOnly.geometry {s t : State} (h : ControlOnly s t) : t.fcl.geometry = s.fcl.geometry := by rw [h]

theorem controlOnly_of_goto_or_return {s t : State} (h : (∃ m, t = goto m s) ∨ ∃ r, t = returnOp r s) :
    ControlOnly s t := by
  rcases h with ⟨m, rfl⟩ | ⟨r, rfl⟩
  · exact controlOnly_goto m s
  · exact controlOnly_returnOp r s

/-- Everything a numbered step can do: its effect, then a move of the FCL's control and the trace alone. -/
theorem opStep_ok {i : Instr} {n : Nat} {s t : State} (h : opStep i n s = .ok t) :
    ∃ u, OpEffect i n s u ∧ ControlOnly u t := by
  cases i
  case issueWrite =>
    obtain ⟨u, hu, ht⟩ := issueWriteStep_ok h
    exact ⟨u, .issueWrite rfl hu, controlOnly_of_goto_or_return ht⟩
  case issueRead =>
    obtain ⟨u, hu, ht⟩ := issueReadStep_ok h
    exact ⟨u, .issueRead rfl hu, controlOnly_of_goto_or_return ht⟩
  case waitReady => exact ⟨s, .control, controlOnly_waitReadyStep h⟩
  case identify =>
    by_cases hn : n = 4
    · subst hn
      simp only [opStep, identifyStep] at h
      split at h <;> cases h
      exact ⟨_, .identified _ rfl rfl, controlOnly_returnOp _ _⟩
    · exact ⟨s, .control, controlOnly_identifyStep hn h⟩
  case decodeId => exact ⟨s, .control, controlOnly_decodeIdStep h⟩
  case pageOffset => exact ⟨s, .control, controlOnly_pageOffsetStep h⟩
  case deviceOp => exact ⟨s, .control, controlOnly_deviceOpStep h⟩
  case erasePage => exact ⟨s, .control, controlOnly_erasePageStep h⟩
  case eraseChip => exact ⟨s, .control, controlOnly_eraseChipStep h⟩
  case programPage => exact ⟨s, .control, controlOnly_programPageStep h⟩
  case eraseBlocks => exact ⟨s, .control, controlOnly_eraseBlocksStep h⟩
  case programBlocks => exact ⟨s, .control, controlOnly_programBlocksStep h⟩
  case readBytes => exact ⟨s, .control, controlOnly_readBytesStep h⟩
  case powerDown => exact ⟨s, .control, controlOnly_powerDownStep h⟩
  case resume => exact ⟨s, .control, controlOnly_resumeStep h⟩
  case reprogramPageSize => exact ⟨s, .control, controlOnly_reprogramPageSizeStep h⟩
  case init =>
    by_cases hn : n = 1
    · subst hn
      obtain ⟨u, hu, h⟩ := bind_ok_iff.1 h
      cases h
      exact ⟨u, .deselect rfl rfl hu, controlOnly_goto _ _⟩
    · exact ⟨s, .control, controlOnly_initStep hn h⟩
  all_goals cases h

/-! ### The state an operation acts in -/

theorem controlOnly_atStep {i : Instr} {n : Nat} {s t : State} (h : atStep i s = .ok (n, t)) : ControlOnly s t := by
  obtain ⟨-, ⟨-, -, rfl⟩ | ⟨-, rfl⟩⟩ := atStep_ok_iff.1 h
  · exact controlOnly_startOp i s
  · exact .refl _

end Sys2Proof.Machine
end

section
/-! SUPPORT. The depth of the call stack (10 R51): every call goes to an operation of a lower rank, so no step of an
operation breaks the bound. -/

namespace Sys2Proof.Machine

/-! ### The control moves -/

theorem callRank_le_four (i : Instr) : callRank i ≤ 4 := by
  cases i <;> simp [callRank]

theorem stackOk_startOp {i : Instr} {s : State} (hp : s.fcl.pc = none) (h : StackOk s.fcl) :
    StackOk (startOp i s).fcl := by
  have hs : s.fcl.stack = [] := by simpa [StackOk, hp] using h
  simpa [StackOk, depthOk, hs] using callRank_le_four i

theorem stackOk_goto {s : State} (h : StackOk s.fcl) (n : Nat) : StackOk (goto n s).fcl := by
  cases hp : s.fcl.pc with
  | none => simpa [StackOk, goto, hp] using h
  | some pc => simpa [StackOk, goto_fcl hp, hp] using h

theorem stackOk_returnOp {s : State} (h : StackOk s.fcl) (r : Result) : StackOk (returnOp r s).fcl := by
  cases hs : s.fcl.stack with
  | nil => simp [returnOp_fcl_top hs, StackOk, hs]
  | cons a rest =>
    cases hp : s.fcl.pc with
    | none => simp [StackOk, hp, hs] at h
    | some pc =>
      simp only [StackOk, hp, hs, List.map_cons, depthOk] at h
      simpa only [returnOp_fcl_caller hs, StackOk, depthOk] using h.2

/-- A call to an operation of a lower rank keeps the bound. -/
theorem stackOk_callOp {s : State} {pc : Pc} {j : Instr} (hp : s.fcl.pc = some pc)
    (hr : callRank j < callRank pc.op) (h : StackOk s.fcl) : StackOk (callOp j s).fcl := by
  simp only [StackOk, hp, depthOk] at h
  simp only [callOp_fcl hp, StackOk, List.map_cons, depthOk, List.length_cons]
  exact ⟨by omega, h⟩

/-! ### Steps that end with the stack within its bound -/

/-- Where the step's body runs through, the call stack is within its bound. -/
structure StackSafe (r : Act State) : Prop where
  after : ∀ t, r = .ok t → StackOk t.fcl

theorem StackSafe.ok {t : State} (h : StackOk t.fcl) : StackSafe (.ok t) where
  after := by
    rintro _ ⟨⟩
    exact h

theorem StackSafe.error (e : Trouble) : StackSafe (.error e) where
  after := by rintro _ ⟨⟩

theorem StackSafe.bind {α : Type} {x : Act α} {k : α → Act State} (h : ∀ a, StackSafe (k a)) :
    StackSafe (x >>= k) where
  after := by
    intro t ht
    obtain ⟨a, -, ht⟩ := bind_ok_iff.1 ht
    exact (h a).after t ht

theorem StackSafe.ite {p : Prop} [Decidable p] {x y : Act State} (hx : StackSafe x) (hy : StackSafe y) :
    StackSafe (if p then x else y) := by
  split <;> assumption

theorem StackSafe.goto {s : State} {n : Nat} (h : StackOk s.fcl) : StackSafe (.ok (goto n s)) :=
  .ok (stackOk_goto h n)

theorem StackSafe.returnOp {s : State} {r : Result} (h : StackOk s.fcl) : StackSafe (.ok (returnOp r s)) :=
  .ok (stackOk_returnOp h r)

theorem StackSafe.callThen {s : State} {pc : Pc} {j : Instr} {k : Value → State → Act State}
    (hp : s.fcl.pc = some pc) (hs : StackOk s.fcl) (hr : callRank j < callRank pc.op)
    (hk : ∀ v u, StackOk u.fcl → StackSafe (k v u)) : StackSafe (callThen j k s) := by
  unfold Machine.callThen
  split
  · exact .ok (stackOk_callOp hp hr hs)
  · exact .returnOp hs
  · exact hk _ _ hs

/-- A step that only calls, and goes on at step `n`. -/
theorem StackSafe.callGoto {s : State} {pc : Pc} {j : Instr} (hp : s.fcl.pc = some pc) (hs : StackOk s.fcl)
    {n : Nat} (hr : callRank j < callRank pc.op) :
    StackSafe (Machine.callThen j (fun _ t => .ok (Machine.goto n t)) s) :=
  .callThen hp hs hr fun _ _ hu => .goto hu

theorem StackSafe.callIf {p : Prop} [Decidable p] {s : State} {pc : Pc} {j : Instr} {n : Nat}
    (hp : s.fcl.pc = some pc) (hs : StackOk s.fcl) (hr : callRank j < callRank pc.op) :
    StackSafe (callIf p j n s) :=
  .ite (.callGoto hp hs hr) (.goto hs)

/-! ### One step of each operation -/

section
variable {s : State} {n : Nat}

theorem stackSafe_waitReadyStep (hp : s.fcl.pc = some ⟨.waitReady, n⟩) (hs : StackOk s.fcl) :
    StackSafe (waitReadyStep n s) := by
  unfold waitReadyStep
  split
  · exact .goto hs
  · refine .callThen hp hs (by simp [callRank]) fun v u hu => ?_
    unfold countPoll
    split
    · exact .goto hu
    · exact .error _
  · exact .ite (.returnOp hs) (.goto hs)
  · exact .ite (.returnOp hs) (.goto hs)
  · exact .goto hs
  · exact .error _

theorem stackSafe_identifyStep (hp : s.fcl.pc = some ⟨.identify, n⟩) (hs : StackOk s.fcl) :
    StackSafe (identifyStep n s) := by
  unfold identifyStep
  split
  · refine .callThen hp hs (by simp [callRank]) fun v u hu => ?_
    unfold keepId
    split
    · exact .goto hu
    · exact .error _
  · exact .goto hs
  · split
    · exact .returnOp hs
    · exact .goto hs
  · split
    · exact .error _
    · exact .returnOp hs
  · exact .error _

theorem stackSafe_decodeIdStep (id : List Byte) (hs : StackOk s.fcl) : StackSafe (decodeIdStep id n s) := by
  unfold decodeIdStep
  split
  · exact .returnOp hs
  · exact .error _

theorem stackSafe_pageOffsetStep (p : Nat) (hs : StackOk s.fcl) : StackSafe (pageOffsetStep p n s) := by
  unfold pageOffsetStep
  split
  · exact .bind fun _ => .returnOp hs
  · exact .error _

theorem stackSafe_bracketClose {body : TransferBody} {mb : Bool} (hp : s.fcl.pc = some ⟨.deviceOp body mb, n⟩)
    (hs : StackOk s.fcl) : StackSafe (bracketClose mb s) := by
  have call : ∀ {l : Locals} {j : Instr}, callRank j < 2 → StackSafe (.ok (callOp j (setLocals l s))) :=
    fun hr => .ok (stackOk_callOp hp hr hs)
  unfold bracketClose
  split
  · split
    · exact .ite (call (by decide)) (call (by decide))
    · exact .returnOp hs
    · exact .ite (call (by decide)) (.goto hs)
  · exact .goto hs

theorem stackSafe_deviceOpStep {body : TransferBody} {mb : Bool} (hp : s.fcl.pc = some ⟨.deviceOp body mb, n⟩)
    (hs : StackOk s.fcl) : StackSafe (deviceOpStep body mb n s) := by
  unfold deviceOpStep
  split
  · exact .callIf hp hs (by simp [callRank])
  · exact .callIf hp hs (by simp [callRank])
  · exact .callThen hp hs (by cases body <;> simp [TransferBody.instr, callRank]) fun _ _ hu => .goto hu
  · exact .callIf hp hs (by simp [callRank])
  · exact stackSafe_bracketClose hp hs
  · exact .returnOp hs
  · exact .error _

theorem stackSafe_keepOffset (p off : Nat) (hs : StackOk s.fcl) : StackSafe (keepOffset p off s) :=
  .bind fun _ => .goto hs

theorem stackSafe_erasePageStep {p : Nat} (hp : s.fcl.pc = some ⟨.erasePage p, n⟩) (hs : StackOk s.fcl) :
    StackSafe (erasePageStep p n s) := by
  unfold erasePageStep
  split
  · exact .bind fun off => stackSafe_keepOffset p off hs
  · exact .callGoto hp hs (by simp [callRank])
  · exact .returnOp hs
  · exact .error _

theorem stackSafe_eraseChipStep (hp : s.fcl.pc = some ⟨.eraseChip, n⟩) (hs : StackOk s.fcl) :
    StackSafe (eraseChipStep n s) := by
  unfold eraseChipStep
  split
  · exact .goto hs
  · exact .callGoto hp hs (by simp [callRank])
  · exact .returnOp hs
  · exact .error _

theorem stackSafe_programPageStep {p : Nat} {b : List Byte} (hp : s.fcl.pc = some ⟨.programPage p b, n⟩)
    (hs : StackOk s.fcl) : StackSafe (programPageStep p b n s) := by
  unfold programPageStep
  split
  · exact .bind fun off => .bind fun _ => stackSafe_keepOffset p off hs
  · exact .callGoto hp hs (by simp [callRank])
  · exact .returnOp hs
  · exact .error _

theorem stackSafe_loopTest (count : Nat) (hs : StackOk s.fcl) : StackSafe (.ok (loopTest count s)) := by
  unfold loopTest
  split
  · exact .returnOp hs
  · exact .goto hs

theorem stackSafe_eraseBlocksStep {start count : Nat} (hp : s.fcl.pc = some ⟨.eraseBlocks start count, n⟩)
    (hs : StackOk s.fcl) : StackSafe (eraseBlocksStep start count n s) := by
  unfold eraseBlocksStep
  split
  · split
    · exact .error _
    · exact .goto hs
  · exact stackSafe_loopTest count hs
  · exact .callThen hp hs (by simp [callRank]) fun _ _ hu => .goto hu
  · exact .error _

theorem stackSafe_programBlocksStep {start count : Nat} {b : List Byte}
    (hp : s.fcl.pc = some ⟨.programBlocks start count b, n⟩) (hs : StackOk s.fcl) :
    StackSafe (programBlocksStep start count b n s) := by
  unfold programBlocksStep
  split
  · split
    · exact .error _
    · exact .ite (.goto hs) (.error _)
  · exact stackSafe_loopTest count hs
  · exact .callThen hp hs (by simp [callRank]) fun _ _ hu => .goto hu
  · exact .error _

theorem stackSafe_readBytesStep {off len : Nat} (hp : s.fcl.pc = some ⟨.readBytes off len, n⟩) (hs : StackOk s.fcl) :
    StackSafe (readBytesStep off len n s) := by
  unfold readBytesStep
  split
  · exact .bind fun _ => .goto hs
  · exact .callThen hp hs (by simp [callRank]) fun _ _ hu => .goto hu
  · exact .returnOp hs
  · exact .error _

theorem stackSafe_powerDownStep (hp : s.fcl.pc = some ⟨.powerDown, n⟩) (hs : StackOk s.fcl) :
    StackSafe (powerDownStep n s) := by
  unfold powerDownStep
  split
  · exact .callGoto hp hs (by simp [callRank])
  · exact .returnOp hs
  · exact .error _

theorem stackSafe_resumeStep (hp : s.fcl.pc = some ⟨.resume, n⟩) (hs : StackOk s.fcl) :
    StackSafe (resumeStep n s) := by
  unfold resumeStep
  split
  · exact .callGoto hp hs (by simp [callRank])
  · exact .goto hs
  · exact .returnOp hs
  · exact .error _

theorem stackSafe_reprogramPageSizeStep (hp : s.fcl.pc = some ⟨.reprogramPageSize, n⟩) (hs : StackOk s.fcl) :
    StackSafe (reprogramPageSizeStep n s) := by
  unfold reprogramPageSizeStep
  split
  · exact .callGoto hp hs (by simp [callRank])
  · exact .returnOp hs
  · exact .error _

theorem stackSafe_initStep (hp : s.fcl.pc = some ⟨.init, n⟩) (hs : StackOk s.fcl) : StackSafe (initStep n s) := by
  unfold initStep
  split
  · refine ⟨fun t ht => ?_⟩
    obtain ⟨u, hu, ht⟩ := bind_ok_iff.1 ht
    cases ht
    refine stackOk_goto ?_ 2
    rw [deselectDevice_eq hu]
    exact hs
  · exact .callGoto hp hs (by simp [callRank])
  · unfold initIdentify
    split
    · exact .returnOp hs
    · exact .callGoto hp hs (by simp [callRank])
  · refine .callThen hp hs (by simp [callRank]) fun v u hu => ?_
    unfold keepStatus
    split
    · exact .goto hu
    · exact .error _
  · exact .ite (.goto hs) (.callThen hp hs (by simp [callRank]) fun _ _ hu => .returnOp hu)
  · exact .callIf hp hs (by simp [callRank])
  · exact .returnOp hs
  · exact .error _

theorem stackOk_of_transferStep {u t : State} (hs : StackOk s.fcl) (hu : TransferStep s u)
    (ht : (∃ m, t = goto m u) ∨ ∃ r, t = returnOp r u) : StackOk t.fcl := by
  rw [← hu.fcl] at hs
  rcases ht with ⟨m, rfl⟩ | ⟨r, rfl⟩
  · exact stackOk_goto hs m
  · exact stackOk_returnOp hs r

/-- No step of an operation breaks the bound of the call stack (R51). -/
theorem stackSafe_opStep {i : Instr} (hp : s.fcl.pc = some ⟨i, n⟩) (hs : StackOk s.fcl) :
    StackSafe (opStep i n s) := by
  cases i
  case issueWrite =>
    refine ⟨fun t ht => ?_⟩
    obtain ⟨u, hu, ht⟩ := issueWriteStep_ok ht
    exact stackOk_of_transferStep hs hu ht
  case issueRead =>
    refine ⟨fun t ht => ?_⟩
    obtain ⟨u, hu, ht⟩ := issueReadStep_ok ht
    exact stackOk_of_transferStep hs hu ht
  case waitReady => exact stackSafe_waitReadyStep hp hs
  case identify => exact stackSafe_identifyStep hp hs
  case decodeId id => exact stackSafe_decodeIdStep id hs
  case pageOffset p => exact stackSafe_pageOffsetStep p hs
  case deviceOp => exact stackSafe_deviceOpStep hp hs
  case erasePage => exact stackSafe_erasePageStep hp hs
  case eraseChip => exact stackSafe_eraseChipStep hp hs
  case programPage => exact stackSafe_programPageStep hp hs
  case eraseBlocks => exact stackSafe_eraseBlocksStep hp hs
  case programBlocks => exact stackSafe_programBlocksStep hp hs
  case readBytes => exact stackSafe_readBytesStep hp hs
  case powerDown => exact stackSafe_powerDownStep hp hs
  case resume => exact stackSafe_resumeStep hp hs
  case reprogramPageSize => exact stackSafe_reprogramPageSizeStep hp hs
  case init => exact stackSafe_initStep hp hs
  all_goals exact .error _

end

end Sys2Proof.Machine
end

section
/-! SUPPORT. The invariant (10 R42, 40 R161, 10 R51 and the canonical forms) is kept by the body of every agent's step
and by the host's moves. -/

namespace Sys2Proof.Machine

/-! ### Changes the invariant does not see -/

/-- The invariant speaks of the FCL only through its call stack, and not of the trace, the faults, the moves and calls
to come and the draws. -/
theorem Inv.of_control_changes {s t : State} (h : Inv s) (hs : StackOk t.fcl)
    (ht : t = { s with
      fcl := t.fcl, trace := t.trace, faults := t.faults, env := t.env, calls := t.calls, draws := t.draws }) :
    Inv t := by
  rw [ht]
  exact
    { txLength := h.txLength, rxLength := h.rxLength, descriptor := h.descriptor
      transfer := ⟨h.transfer.atRest, h.transfer.inFlight⟩
      frameWhileDeselected := h.frameWhileDeselected, array := h.array, pagebufLength := h.pagebufLength, stack := hs }

theorem Inv.controlOnly {s t : State} (h : Inv s) (ht : ControlOnly s t) (hs : StackOk t.fcl) : Inv t :=
  h.of_control_changes hs (by rw [ht])

theorem Inv.recordFault {s : State} (h : Inv s) (f : FaultName) : Inv (recordFault f s) := by
  unfold Machine.recordFault
  split
  · exact h
  · exact h.of_control_changes h.stack rfl

/-- A step whose body keeps the invariant keeps it, where it raises a fault too. -/
theorem Inv.finish {s t : State} {r : Act State} (h : Inv s) (hr : ∀ u, r = .ok u → Inv u)
    (ht : finish s r = .next t) : Inv t := by
  rcases finish_next_iff.1 ht with ht | ⟨f, -, rfl⟩
  · exact hr t ht
  · exact h.recordFault f

theorem Inv.consumeMove {s : State} (h : Inv s) : Inv (consumeMove s) := h.of_control_changes h.stack rfl

/-! ### The Transfer Engine and the bus (R42, R161) -/

/-- What an engine or bus step has to keep. -/
theorem Inv.of_engine_changes {s t : State} (h : Inv s)
    (ht : t = { s with desc := t.desc, rx := t.rx, fg := t.fg, bus := t.bus })
    (hrx : t.rx.length = s.rx.length) (hd : DescriptorOk s.cfg.bufCap t.desc) (hx : TransferOk t) : Inv t := by
  rw [h.rxLength] at hrx
  rw [ht] at hx ⊢
  exact
    { txLength := h.txLength, rxLength := hrx, descriptor := hd, transfer := hx
      frameWhileDeselected := h.frameWhileDeselected, array := h.array, pagebufLength := h.pagebufLength
      stack := h.stack }

/-- With a byte handed to the shifter the transfer is in flight. -/
theorem transferOk_shifting {s : State} {b : Byte} (hm : s.desc.mode ≠ .idle) (hf : s.fg = .asleep)
    (hb : s.bus.state = .shifting b) (hi : s.bus.irqPending = false) : TransferOk s where
  atRest := fun h => absurd h hm
  inFlight := fun _ => ⟨hf, by simp [hb, hi]⟩

theorem transferOk_finishTransfer {s : State} (hb : s.bus.state = .ready) (hi : s.bus.irqPending = false) :
    TransferOk (finishTransfer s) where
  atRest := fun _ => ⟨rfl, hb, hi⟩
  inFlight := fun h => absurd rfl h

/-- A TE call's new descriptor, whose payload or response fits the buffers (R143, R144). -/
theorem inv_startTransfer {c x r : Nat} {s t : State} (h : Inv s) (hm : s.desc.mode = .idle) (hcx : c ≤ x)
    (hx : 1 + x ≤ s.cfg.bufCap) (hr : r ≤ s.cfg.bufCap) (hrx : 0 < r → x = c) (ht : startTransfer c x r s = .ok t) :
    Inv t := by
  obtain ⟨b, -, -, rfl⟩ := startTransfer_ok_iff.1 ht
  have hd : DescriptorOk s.cfg.bufCap ⟨.sendingCommandBytes, b, 1, x, 0, r, c⟩ :=
    ⟨hcx, hx, by simpa using hr, nofun, fun _ => hrx, nofun, nofun⟩
  obtain ⟨-, -, hi⟩ := h.transfer.atRest hm
  exact h.of_engine_changes rfl rfl hd (transferOk_shifting (by simp) rfl rfl hi)

theorem inv_teWriteCall {nCmd nData : Nat} {s t : State} (h : Inv s) (ht : teWriteCall nCmd nData s = .ok t) :
    Inv t := by
  obtain ⟨hm, hn, hc, ht⟩ := teWriteCall_ok_iff.1 ht
  exact inv_startTransfer h hm (by omega) (by omega) (by omega) (by omega) ht

theorem inv_teReadCall {nCmd nResp : Nat} {s t : State} (h : Inv s) (ht : teReadCall nCmd nResp s = .ok t) :
    Inv t := by
  obtain ⟨hm, hn, hc, ht⟩ := teReadCall_ok_iff.1 ht
  exact inv_startTransfer h hm (by omega) (by omega) (by omega) (by omega) ht

/-- The end of a transfer, all counters spent (R149 to R151). -/
theorem DescriptorOk.finished {cap : Nat} {d : Descriptor} (h : DescriptorOk cap d) (hc : d.cmdRemaining = 0)
    (hx : d.txRemaining = 0) (hr : d.rxRemaining = 0) : DescriptorOk cap { d with mode := .idle } :=
  ⟨h.cmdWithinTx, h.txWithinBuffer, h.rxWithinBuffer, fun _ => ⟨hc, hx, hr⟩, nofun, nofun, nofun⟩

/-- R146's descriptor. -/
theorem DescriptorOk.commandByte {cap : Nat} {d : Descriptor} (h : DescriptorOk cap d)
    (hm : d.mode = .sendingCommandBytes) (hc : 0 < d.cmdRemaining) :
    DescriptorOk cap { d with
      txCursor := d.txCursor + 1, txRemaining := d.txRemaining - 1, cmdRemaining := d.cmdRemaining - 1 } := by
  obtain ⟨hcx, hx, hr, -, hs, -, -⟩ := h
  have hs := hs hm
  refine ⟨?_, ?_, hr, ?_, ?_, ?_, ?_⟩ <;> simp only [hm, reduceCtorEq, false_imp_iff] <;> omega

/-- R147's descriptor. -/
theorem DescriptorOk.response {cap : Nat} {d : Descriptor} (h : DescriptorOk cap d)
    (hm : d.mode = .sendingCommandBytes) (hc : d.cmdRemaining = 0) (hr : 0 < d.rxRemaining) :
    DescriptorOk cap { d with mode := .receivingDataBytes } :=
  ⟨h.cmdWithinTx, h.txWithinBuffer, h.rxWithinBuffer, nofun, nofun, nofun,
    fun _ => ⟨hc, (h.sendingCommand hm hr).trans hc, hr⟩⟩

/-- R148's and R150's descriptor. -/
theorem DescriptorOk.payloadByte {cap : Nat} {d : Descriptor} (h : DescriptorOk cap d) (hc : d.cmdRemaining = 0)
    (hr : d.rxRemaining = 0) (hx : 0 < d.txRemaining) :
    DescriptorOk cap { d with
      mode := .sendingDataBytes, txCursor := d.txCursor + 1, txRemaining := d.txRemaining - 1 } := by
  obtain ⟨hcx, htx, hrx, -, -, -, -⟩ := h
  refine ⟨?_, ?_, hrx, nofun, nofun, fun _ => ⟨hc, hr⟩, nofun⟩ <;> dsimp only <;> omega

/-- R151's descriptor while another byte is due. -/
theorem DescriptorOk.responseByte {cap : Nat} {d : Descriptor} (h : DescriptorOk cap d)
    (hm : d.mode = .receivingDataBytes) (hr : 0 < d.rxRemaining - 1) :
    DescriptorOk cap { d with rxCursor := d.rxCursor + 1, rxRemaining := d.rxRemaining - 1 } := by
  obtain ⟨hcx, hx, hrx, -, -, -, hv⟩ := h
  have hv := hv hm
  refine ⟨hcx, hx, ?_, ?_, ?_, ?_, ?_⟩ <;> simp only [hm, reduceCtorEq, false_imp_iff] <;> omega

/-- R151's descriptor after the last byte. -/
theorem DescriptorOk.lastResponseByte {cap : Nat} {d : Descriptor} (h : DescriptorOk cap d)
    (hm : d.mode = .receivingDataBytes) (hr : ¬ 0 < d.rxRemaining - 1) :
    DescriptorOk cap { d with mode := .idle, rxCursor := d.rxCursor + 1, rxRemaining := d.rxRemaining - 1 } := by
  obtain ⟨hc, hx, hr1⟩ := h.receiving hm
  have hrx := h.rxWithinBuffer
  exact ⟨h.cmdWithinTx, h.txWithinBuffer, by dsimp only; omega, fun _ => ⟨hc, hx, by dsimp only; omega⟩,
    nofun, nofun, nofun⟩

/-- The handler, entered where R270 enables it, reports the byte that was pending and hands over the next one or ends
the transfer. -/
theorem inv_byteCompleteStep {s t : State} (h : Inv s) (ht : byteCompleteStep s = .ok t) : Inv t := by
  obtain ⟨⟨hp, hf, hb⟩, ht⟩ := byteCompleteStep_ok_iff.1 ht
  have hne : s.desc.mode ≠ .idle := fun hi => by simp [(h.transfer.atRest hi).2.2] at hp
  cases handleByteComplete_cases ht with
  | commandByte hm hc ht =>
    obtain ⟨b, -, -, rfl⟩ := shiftTx_ok_iff.1 ht
    exact h.of_engine_changes rfl rfl (h.descriptor.commandByte hm hc) (transferOk_shifting hne hf rfl rfl)
  | response hm hc hr ht =>
    obtain ⟨-, rfl⟩ := shift_ok_iff.1 ht
    exact h.of_engine_changes rfl rfl (h.descriptor.response hm hc hr) (transferOk_shifting (by simp) hf rfl rfl)
  | firstPayload hm hc hr hx ht =>
    obtain ⟨b, -, -, rfl⟩ := shiftTx_ok_iff.1 ht
    exact h.of_engine_changes rfl rfl (h.descriptor.payloadByte hc hr hx) (transferOk_shifting (by simp) hf rfl rfl)
  | commandOnly hm hc hr hx ht =>
    subst ht
    exact h.of_engine_changes rfl rfl (h.descriptor.finished hc hx hr) (transferOk_finishTransfer hb rfl)
  | payloadByte hm hx ht =>
    obtain ⟨hc, hr⟩ := h.descriptor.sendingData hm
    obtain ⟨b, -, -, rfl⟩ := shiftTx_ok_iff.1 ht
    exact h.of_engine_changes rfl rfl (h.descriptor.payloadByte hc hr hx) (transferOk_shifting (by simp) hf rfl rfl)
  | payloadSent hm hx ht =>
    obtain ⟨hc, hr⟩ := h.descriptor.sendingData hm
    subst ht
    exact h.of_engine_changes rfl rfl (h.descriptor.finished hc hx hr) (transferOk_finishTransfer hb rfl)
  | responseByte hm ht =>
    obtain ⟨-, ht⟩ := storeResponseByte_ok_iff.1 ht
    dsimp only at ht
    split at ht
    case isTrue hr =>
      obtain ⟨-, rfl⟩ := shift_ok_iff.1 ht
      exact h.of_engine_changes rfl (by simp) (h.descriptor.responseByte hm hr)
        (transferOk_shifting hne hf rfl rfl)
    case isFalse hr =>
      subst ht
      exact h.of_engine_changes rfl (by simp) (h.descriptor.lastResponseByte hm hr) (transferOk_finishTransfer hb rfl)

/-! ### The device -/

/-- What a step of the device or of the chip select has to keep. -/
theorem Inv.of_device_changes {s t : State} (h : Inv s) (ht : t = { s with cs := t.cs, dev := t.dev, draws := t.draws })
    (hf : t.cs = .high → t.dev.frame = []) (ha : t.dev.array.wf (deviceCap s))
    (hp : t.dev.pagebuf.length = devicePage s) : Inv t := by
  rw [ht]
  exact
    { txLength := h.txLength, rxLength := h.rxLength, descriptor := h.descriptor
      transfer := ⟨h.transfer.atRest, h.transfer.inFlight⟩
      frameWhileDeselected := hf, array := ha, pagebufLength := hp, stack := h.stack }

theorem inv_exchange {s : State} (h : Inv s) (b : Byte) : Inv (exchange b s).2 := by
  rw [exchange_state]
  cases hcs : s.cs with
  | low => exact h.of_device_changes (by simp) (by simp) h.array h.pagebufLength
  | high => exact h.of_device_changes rfl (fun _ => h.frameWhileDeselected hcs) h.array h.pagebufLength

theorem inv_busExchangeStep {s t : State} (h : Inv s) (ht : busExchangeStep s = .ok t) : Inv t := by
  obtain ⟨b, hb, rfl⟩ := busExchangeStep_ok_iff.1 ht
  have hm : s.desc.mode ≠ .idle := fun hm => by simpa [hb] using (h.transfer.atRest hm).2.1
  have hf : s.fg = .asleep := (h.transfer.inFlight hm).1
  have hu := inv_exchange h b
  refine hu.of_engine_changes rfl rfl hu.descriptor ?_
  rw [exchange_state]
  exact ⟨fun hm' => absurd hm' hm, fun _ => ⟨hf, by simp⟩⟩

theorem inv_deviceCompleteStep {s t : State} (h : Inv s) (ht : deviceCompleteStep s = .ok t) : Inv t := by
  obtain ⟨-, ht⟩ := check_bind_ok_iff.1 ht
  cases ht
  exact h.of_device_changes rfl h.frameWhileDeselected h.array h.pagebufLength

theorem inv_selectDevice {s : State} (h : Inv s) : Inv (selectDevice s) := by
  cases hcs : s.cs with
  | low => simpa [selectDevice, hcs] using h
  | high =>
    simp only [selectDevice, hcs]
    exact h.of_device_changes rfl nofun h.array h.pagebufLength

theorem inv_deselectDevice {s t : State} (h : Inv s) (ht : deselectDevice s = .ok t) : Inv t := by
  rcases deselectDevice_ok_iff.1 ht with ⟨-, u, hu, rfl⟩ | ⟨-, rfl⟩
  · obtain ⟨hd, hf, hk⟩ := commitFrame_ok hu
    obtain ⟨ha, hp⟩ := hk h.array h.pagebufLength
    exact h.of_device_changes (by rw [hd]) (fun _ => hf) ha hp
  · exact h

/-! ### Operations and the host -/

theorem inv_fillTx {s : State} {frame : List Byte} (h : Inv s) (hl : frame.length ≤ s.cfg.bufCap) :
    Inv (fillTx frame s) where
  txLength := by
    have := h.txLength
    simp only [fillTx_tx, fillTx_cfg, List.length_append, List.length_drop]
    omega
  rxLength := h.rxLength
  descriptor := h.descriptor
  transfer := ⟨h.transfer.atRest, h.transfer.inFlight⟩
  frameWhileDeselected := h.frameWhileDeselected
  array := h.array
  pagebufLength := h.pagebufLength
  stack := h.stack

theorem inv_transferStep {s t : State} (h : Inv s) (ht : TransferStep s t) : Inv t := by
  cases ht with
  | rest => exact h
  | fill frame hl _ => exact inv_fillTx h hl
  | select => exact inv_selectDevice h
  | write ht => exact inv_teWriteCall h ht
  | read ht => exact inv_teReadCall h ht
  | deselect ht => exact inv_deselectDevice h ht

theorem inv_opEffect {i : Instr} {n : Nat} {s t : State} (h : Inv s) (ht : OpEffect i n s t) : Inv t := by
  cases ht with
  | control => exact h
  | issueWrite _ ht | issueRead _ ht => exact inv_transferStep h ht
  | deselect _ _ ht => exact inv_deselectDevice h ht
  | identified => exact h.of_control_changes h.stack rfl

theorem inv_startOp {i : Instr} {s : State} (h : Inv s) (hp : s.fcl.pc = none) : Inv (startOp i s) :=
  h.controlOnly (controlOnly_startOp i s) (stackOk_startOp hp h.stack)

/-- An operation, executed at its own step or started, keeps the invariant. -/
theorem inv_exec_operation {i : Instr} {s t : State} (hi : i.isFclOp = true) (h : Inv s) (ht : exec i s = .next t) :
    Inv t := by
  rcases exec_next ht with ⟨f, rfl⟩ | ⟨n, u, -, hu, ht⟩ | ⟨hi', -⟩
  · exact h.recordFault f
  · obtain ⟨hu, hp⟩ : Inv u ∧ u.fcl.pc = some ⟨i, n⟩ := by
      obtain ⟨-, ⟨hp, rfl, rfl⟩ | ⟨hp, rfl⟩⟩ := atStep_ok_iff.1 hu
      · exact ⟨inv_startOp h hp, rfl⟩
      · exact ⟨h, hp⟩
    obtain ⟨v, hv, hc⟩ := opStep_ok ht
    exact (inv_opEffect hu hv).controlOnly hc ((stackSafe_opStep hp hu.stack).after t ht)
  · simp [hi] at hi'

end Sys2Proof.Machine
end

section
/-! SUPPORT. The step (60 R268, R271): what it can answer, and the obligations of the state family that follow from what
every instruction keeps. -/

namespace Sys2Proof.Machine

/-! ### The fetched instruction -/

theorem fetch_fcl_eq_some_iff {s : State} {i : Instr} :
    fetch .fcl s = some i ↔ s.fg = .running ∧ i.isFclOp = true ∧ ∃ n, s.fcl.pc = some ⟨i, n⟩ := by
  cases hf : s.fg with
  | asleep => simp [fetch, hf]
  | running =>
    cases hp : s.fcl.pc with
    | none => simp [fetch, hf, hp]
    | some pc =>
      obtain ⟨op, n⟩ := pc
      by_cases ho : op.isFclOp = true
      · simp only [fetch, hf, hp, ho, if_true, Option.some.injEq, Pc.mk.injEq, true_and]
        constructor
        · rintro rfl
          exact ⟨ho, n, rfl, rfl⟩
        · rintro ⟨-, -, h, -⟩
          exact h
      · simp only [fetch, hf, hp, ho, Option.some.injEq, Pc.mk.injEq, true_and, if_false, reduceCtorEq, false_iff]
        rintro ⟨hi, -, rfl, -⟩
        exact ho hi

theorem fetch_bus_eq_some_iff {s : State} {i : Instr} :
    fetch .bus s = some i ↔ i = .busStep ∧ ∃ b, s.bus.state = .shifting b := by
  cases hb : s.bus.state <;> simp [fetch, hb, eq_comm]

theorem fetch_handler_eq_some_iff {s : State} {i : Instr} :
    fetch .handler s = some i ↔
      i = .byteComplete ∧ s.bus.irqPending = true ∧ s.fg = .asleep ∧ s.bus.state = .ready := by
  by_cases h : handlerEnabled s
  · simpa [fetch, h, eq_comm] using fun _ => h
  · simp [fetch, h]

theorem fetch_device_eq_some_iff {s : State} {i : Instr} :
    fetch .device s = some i ↔ i = .deviceComplete ∧ s.dev.busy = true := by
  cases hb : s.dev.busy <;> simp [fetch, hb, eq_comm]

/-- An agent with an instruction steps by executing it. -/
theorem step_of_fetch {s : State} {a : Agent} {i : Instr} (hc : s.cfg.firstBytesDistinct = true) (hf : s.faults = [])
    (hm : nextMove s = some (.agent a)) (hi : fetch a (consumeMove s) = some i) : step s = exec i (consumeMove s) := by
  simp [step, hc, hf, hm, takeMove, agentStep, hi]

/-- Everything a step can answer as a next state: nothing moves, the move of an agent that has no instruction is used
up, an agent executes its instruction, or the host acts. -/
theorem step_next {s t : State} (h : step s = .next t) :
    t = s ∨ t = consumeMove s ∨ (∃ a i, fetch a (consumeMove s) = some i ∧ exec i (consumeMove s) = .next t) ∨
      t = hostStart (consumeMove s) ∨ ∃ calls, t = hostPowerCycle calls (consumeMove s) := by
  unfold step at h
  split at h
  case isFalse => cases h
  split at h
  · cases h
  split at h
  case h_2 => cases h; exact .inl rfl
  case h_1 m _ =>
    cases m with
    | agent a =>
      simp only [takeMove, agentStep] at h
      split at h
      case h_1 i hi => exact .inr (.inr (.inl ⟨a, i, hi, h⟩))
      case h_2 => cases h; exact .inr (.inl rfl)
    | startCall => cases h; exact .inr (.inr (.inr (.inl rfl)))
    | powerCycle calls => cases h; exact .inr (.inr (.inr (.inr ⟨calls, rfl⟩)))

/-- Settles O5: the step's agent case, and one equivalence per agent's fetch. -/
theorem stepRunsTheFetchedInstruction : Obligations.StepRunsTheFetchedInstruction :=
  ⟨fun _ _ _ => step_of_fetch, fun _ _ => fetch_fcl_eq_some_iff, fun _ _ => fetch_bus_eq_some_iff,
    fun _ _ => fetch_handler_eq_some_iff, fun _ _ => fetch_device_eq_some_iff⟩

/-! ### What every instruction keeps -/

theorem exec_cfg {i : Instr} {s t : State} (h : exec i s = .next t) : t.cfg = s.cfg := by
  rcases exec_next h with ⟨f, rfl⟩ | ⟨n, u, -, hu, ht⟩ | ⟨-, ht⟩
  · exact recordFault_cfg f s
  · obtain ⟨v, hv, hc⟩ := opStep_ok ht
    rw [hc.cfg, hv.cfg, (controlOnly_atStep hu).cfg]
  · exact (hardwareOnly_hardwareStep ht).cfg

theorem hostStart_cfg (s : State) : (hostStart s).cfg = s.cfg := by
  rcases hostStart_cases s with h | ⟨op, rest, -, -, h⟩
  · rw [h]
  · rw [h, startOp_cfg]

theorem hostPowerCycle_cfg (calls : List Instr) (s : State) : (hostPowerCycle calls s).cfg = s.cfg := by
  unfold hostPowerCycle
  split <;> rfl

/-- Settles O10: no body of an instruction writes the parameters, and a power cycle keeps them. -/
theorem parametersNeverChange : Obligations.ParametersNeverChange := by
  refine ⟨fun _ _ _ => exec_cfg, fun s t h => ?_⟩
  rcases step_next h with rfl | rfl | ⟨a, i, -, h⟩ | rfl | ⟨calls, rfl⟩
  · rfl
  · rfl
  · rw [exec_cfg h, consumeMove_cfg]
  · rw [hostStart_cfg, consumeMove_cfg]
  · rw [hostPowerCycle_cfg, consumeMove_cfg]

theorem OpEffect.cs {i : Instr} {n : Nat} {s t : State} (h : OpEffect i n s t) :
    t.cs = s.cs ∨ (∃ f m, i = .issueWrite f m) ∨ (∃ f m, i = .issueRead f m) ∨ i = .init := by
  cases h with
  | control | identified => exact .inl rfl
  | issueWrite hi _ => exact .inr (.inl ⟨_, _, hi⟩)
  | issueRead hi _ => exact .inr (.inr (.inl ⟨_, _, hi⟩))
  | deselect hi _ _ => exact .inr (.inr (.inr hi))

theorem OpEffect.geometry {i : Instr} {n : Nat} {s t : State} (h : OpEffect i n s t) :
    t.fcl.geometry = s.fcl.geometry ∨ (i = .identify ∧ n = 4) := by
  cases h with
  | control => exact .inl rfl
  | issueWrite _ h | issueRead _ h => exact .inl (by rw [h.fcl])
  | deselect _ _ h => exact .inl (by rw [deselectDevice_eq h])
  | identified _ hi hn => exact .inr ⟨hi, hn⟩

/-- Settles O16: of the operations only these three have an effect on chip select, and no other body has one. -/
theorem chipSelectIsDrivenByTheFcl : Obligations.ChipSelectIsDrivenByTheFcl := by
  intro i s t h hne
  rcases exec_next h with ⟨f, rfl⟩ | ⟨n, u, -, hu, ht⟩ | ⟨-, ht⟩
  · exact absurd (recordFault_cs f s) hne
  · obtain ⟨v, hv, hc⟩ := opStep_ok ht
    rw [hc.cs, ← (controlOnly_atStep hu).cs] at hne
    exact hv.cs.resolve_left hne
  · exact absurd (hardwareOnly_hardwareStep ht).cs hne

/-- Settles O17: only the effect of `identify` at step 4 is the geometry, and an operation that starts is at step 1. -/
theorem geometryIsWrittenByIdentifyAlone : Obligations.GeometryIsWrittenByIdentifyAlone := by
  intro i s t h hne
  rcases exec_next h with ⟨f, rfl⟩ | ⟨n, u, -, hu, ht⟩ | ⟨-, ht⟩
  · exact absurd (by rw [recordFault_fcl]) hne
  · obtain ⟨v, hv, hc⟩ := opStep_ok ht
    rw [hc.geometry, ← (controlOnly_atStep hu).geometry] at hne
    obtain ⟨rfl, rfl⟩ := hv.geometry.resolve_left hne
    obtain ⟨-, ⟨-, h4, -⟩ | ⟨hp, -⟩⟩ := atStep_ok_iff.1 hu
    · cases h4
    · exact ⟨rfl, hp⟩
  · exact absurd (by rw [(hardwareOnly_hardwareStep ht).fcl]) hne

/-! ### The invariant -/

theorem stackOk_reset : StackOk Fcl.reset := by simp [StackOk, Fcl.reset, depthOk, callRank]

/-- The descriptor with no transfer started since the reset: idle, every counter 0 (R64). -/
theorem descriptorOk_reset (cap : Nat) (b : Byte) : DescriptorOk cap ⟨.idle, b, 0, 0, 0, 0, 0⟩ :=
  ⟨le_rfl, Nat.zero_le _, Nat.zero_le _, fun _ => ⟨rfl, rfl, rfl⟩, nofun, nofun, nofun⟩

/-- Settles O12: the reset lays a fresh array and an idle descriptor, and `init` calls from rank 2 on an empty stack. -/
theorem invariantHoldsAtReset : Obligations.InvariantHoldsAtReset := fun c =>
  { txLength := by simp [State.resetAt]
    rxLength := by simp [State.resetAt]
    descriptor := descriptorOk_reset c.bufCap 0
    transfer := ⟨fun _ => ⟨rfl, rfl, rfl⟩, fun h => absurd rfl h⟩
    frameWhileDeselected := nofun
    array := State.resetAt_array_wf c
    pagebufLength := by simp [State.resetAt, devicePage]
    stack := stackOk_reset }

theorem inv_powerCycle {s : State} (h : Inv s) : Inv (powerCycle s) where
  txLength := by simp [powerCycle, freeBytes]
  rxLength := by simp [powerCycle, freeBytes]
  descriptor := descriptorOk_reset s.cfg.bufCap (Config.freeByte (s.draws + 1))
  transfer := ⟨fun _ => ⟨rfl, rfl, rfl⟩, fun h => absurd rfl h⟩
  frameWhileDeselected := fun _ => rfl
  array := by
    simp only [powerCycle, powerCycleDevice]
    split
    · exact Memory.wf_fresh _ _
    · exact h.array
  pagebufLength := by simp [powerCycle, powerCycleDevice, freeBytes, devicePage]
  stack := stackOk_reset

theorem inv_hostPowerCycle {s : State} (calls : List Instr) (h : Inv s) : Inv (hostPowerCycle calls s) := by
  unfold hostPowerCycle
  split
  · exact (inv_powerCycle h).of_control_changes stackOk_reset rfl
  · exact h

theorem inv_hostStart {s : State} (h : Inv s) : Inv (hostStart s) := by
  rcases hostStart_cases s with hs | ⟨op, rest, -, hn, hs⟩
  · rwa [hs]
  · obtain ⟨-, -, hp, -⟩ := nextCall_eq_some_iff.1 hn
    rw [hs]
    exact inv_startOp (h.of_control_changes (t := { s with calls := rest }) h.stack rfl) hp

/-- The instruction an agent fetches keeps the invariant. -/
theorem inv_exec_fetched {a : Agent} {i : Instr} {s t : State} (h : Inv s) (hi : fetch a s = some i)
    (ht : exec i s = .next t) : Inv t := by
  cases a with
  | fcl => exact inv_exec_operation (fetch_fcl_eq_some_iff.1 hi).2.1 h ht
  | bus =>
    obtain ⟨rfl, -⟩ := fetch_bus_eq_some_iff.1 hi
    exact h.finish (fun _ => inv_busExchangeStep h) ht
  | handler =>
    obtain ⟨rfl, -⟩ := fetch_handler_eq_some_iff.1 hi
    exact h.finish (fun _ => inv_byteCompleteStep h) ht
  | device =>
    obtain ⟨rfl, -⟩ := fetch_device_eq_some_iff.1 hi
    exact h.finish (fun _ => inv_deviceCompleteStep h) ht

/-- Settles O13: the agents' instructions and the host's moves each keep the invariant. -/
theorem everyStepKeepsTheInvariant : Obligations.EveryStepKeepsTheInvariant := by
  intro s t h ht
  rcases step_next ht with rfl | rfl | ⟨a, i, hi, ht⟩ | rfl | ⟨calls, rfl⟩
  · exact h
  · exact h.consumeMove
  · exact inv_exec_fetched h.consumeMove hi ht
  · exact inv_hostStart h.consumeMove
  · exact inv_hostPowerCycle calls h.consumeMove

/-! ### Reset and control -/

/-- P-reset (R322) holds right after the first power-on. -/
theorem pReset_launch (c : Config) (calls : List Instr) : PReset (State.launch c calls) where
  mode := rfl
  counters := ⟨rfl, rfl, rfl, rfl, rfl⟩
  buffers := by simp [State.launch, State.resetAt]
  foreground := rfl
  bus := ⟨rfl, rfl⟩
  fcl := rfl
  trace := rfl
  power := rfl
  busy := rfl
  pow2Pending := rfl
  frame := rfl
  pagebuf := by simp [State.launch, State.resetAt, devicePage]

/-- Settles O11: the values are those of `State.resetAt`, and the launch premises are P-reset with the hypotheses. -/
theorem resetLeavesTheSpecsValues : Obligations.ResetLeavesTheSpecsValues := by
  intro c calls
  have launched (hw : c.wf = true) (hd : c.devPresent = true)
      (ho : ∀ op ∈ calls, op.isTopLevel = true ∧ CapacityFor c op) : Launched (State.launch c calls) :=
    { reset := pReset_launch c calls, noFault := rfl, config := hw, device := hd
      capacity := fun op h => (ho op h).2, topLevel := fun op h => (ho op h).1 }
  exact ⟨rfl, rfl, rfl, rfl, rfl, rfl, rfl, rfl, rfl, rfl, rfl, rfl, rfl, rfl, rfl, rfl, rfl, rfl, rfl, rfl, rfl, rfl,
    rfl, rfl, pReset_launch c calls, launched⟩

/-- Settles O42: each control move, in the case of the stack it meets. -/
theorem fclControlMoves : Obligations.FclControlMoves := by
  intro s pc n i r hp
  refine ⟨by simp [goto, hp], by simp [callOp, hp], fun hs => ⟨by simp [returnOp, hs], ?_, ?_⟩, fun a rest hs => ?_⟩
  · exact returnOp_result_top hs
  · simp [observe, returnOp_fcl_top hs]
  · simp [returnOp, hs]

end Sys2Proof.Machine
end

section
/-! SUPPORT. The trace is written and never read (10 R62, 60 R281): records put before those of the trace stay there and
change nothing else that a step does. -/

namespace Sys2Proof.Machine

/-! ### Records before the trace -/

/-- The state with the records `l` before those of its trace. -/
def afterTrace (l : List TraceRecord) (s : State) : State := { s with trace := l ++ s.trace }

section
variable (l : List TraceRecord) (s : State)

@[simp] theorem afterTrace_cfg : (afterTrace l s).cfg = s.cfg := rfl
@[simp] theorem afterTrace_desc : (afterTrace l s).desc = s.desc := rfl
@[simp] theorem afterTrace_fg : (afterTrace l s).fg = s.fg := rfl
@[simp] theorem afterTrace_bus : (afterTrace l s).bus = s.bus := rfl
@[simp] theorem afterTrace_cs : (afterTrace l s).cs = s.cs := rfl
@[simp] theorem afterTrace_fcl : (afterTrace l s).fcl = s.fcl := rfl
@[simp] theorem afterTrace_dev : (afterTrace l s).dev = s.dev := rfl

end

theorem emit_afterTrace (l : List TraceRecord) (r : TraceRecord) (s : State) :
    emit r (afterTrace l s) = afterTrace l (emit r s) := by
  simp [emit, afterTrace]

theorem callOp_afterTrace (l : List TraceRecord) (i : Instr) (s : State) :
    callOp i (afterTrace l s) = afterTrace l (callOp i s) := by
  obtain ⟨_, _, _, _, _, _, _, ⟨_, _ | pc, _, _, _⟩, _, _, _, _, _, _⟩ := s <;> rfl

theorem returnOp_afterTrace (l : List TraceRecord) (r : Result) (s : State) :
    returnOp r (afterTrace l s) = afterTrace l (returnOp r s) := by
  obtain ⟨_, _, _, _, _, _, _, ⟨_, _, _, _ | ⟨a, rest⟩, _⟩, _, _, _, _, _, _⟩ := s <;> rfl

theorem selectDevice_afterTrace (l : List TraceRecord) (s : State) :
    selectDevice (afterTrace l s) = afterTrace l (selectDevice s) := by
  obtain ⟨_, _, _, _, _, _, _ | _, _, _, _, _, _, _, _⟩ := s <;> rfl

theorem exchange_afterTrace (l : List TraceRecord) (b : Byte) (s : State) :
    exchange b (afterTrace l s) = ((exchange b s).1, afterTrace l (exchange b s).2) := by
  obtain ⟨_, _, _, _, _, _, _ | _, _, _, _, _, _, _, _⟩ := s <;> rfl

theorem recordFault_afterTrace (l : List TraceRecord) (f : FaultName) (s : State) :
    recordFault f (afterTrace l s) = afterTrace l (recordFault f s) := by
  by_cases hf : f ∈ s.faults <;> simp [recordFault, afterTrace, hf]

/-! ### Bodies that end alike -/

/-- The body `r'`, of a step from a state with the records `l` before its trace, ends as `r` does from the state without
them: with these records before the trace, or in the same trouble. -/
def SameAfter (l : List TraceRecord) (r' r : Act State) : Prop := r' = r.map (afterTrace l)

section
variable {l : List TraceRecord}

theorem SameAfter.ok {t' t : State} (h : t' = afterTrace l t) : SameAfter l (.ok t') (.ok t) := by
  rw [h]
  rfl

theorem SameAfter.error (e : Trouble) : SameAfter l (.error e) (.error e) := rfl

/-- After a check or a value that the trace has no part in. -/
theorem SameAfter.bind {α : Type} {x : Act α} {k' k : α → Act State} (h : ∀ a, SameAfter l (k' a) (k a)) :
    SameAfter l (x >>= k') (x >>= k) := by
  cases x with
  | ok a => exact h a
  | error e => rfl

/-- One body after another. -/
theorem SameAfter.seq {r' r : Act State} {k' k : State → Act State} (hr : SameAfter l r' r)
    (hk : ∀ u, SameAfter l (k' (afterTrace l u)) (k u)) : SameAfter l (r' >>= k') (r >>= k) := by
  unfold SameAfter at hr
  subst hr
  cases r with
  | ok u => exact hk u
  | error e => rfl

theorem SameAfter.ite {p : Prop} [Decidable p] {x' x y' y : Act State} (hx : SameAfter l x' x)
    (hy : SameAfter l y' y) : SameAfter l (if p then x' else y') (if p then x else y) := by
  split <;> assumption

theorem SameAfter.returnOp {s' s : State} {r : Result} (h : s' = afterTrace l s) :
    SameAfter l (.ok (returnOp r s')) (.ok (returnOp r s)) :=
  .ok (by rw [h, returnOp_afterTrace])

theorem SameAfter.callOp {s' s : State} {i : Instr} (h : s' = afterTrace l s) :
    SameAfter l (.ok (callOp i s')) (.ok (callOp i s)) :=
  .ok (by rw [h, callOp_afterTrace])

theorem SameAfter.gotoEmit {s' s : State} {n : Nat} {r : TraceRecord} (h : s' = afterTrace l s) :
    SameAfter l (.ok (goto n (emit r s'))) (.ok (goto n (emit r s))) :=
  .ok (by rw [h, emit_afterTrace]; rfl)

theorem SameAfter.returnEmit {s' s : State} {v : Result} {r : TraceRecord} (h : s' = afterTrace l s) :
    SameAfter l (.ok (Machine.returnOp v (emit r s'))) (.ok (Machine.returnOp v (emit r s))) :=
  .returnOp (by rw [h, emit_afterTrace])

theorem SameAfter.callThen {s : State} {i : Instr} {k' k : Value → State → Act State}
    (hk : ∀ v u, SameAfter l (k' v (afterTrace l u)) (k v u)) :
    SameAfter l (callThen i k' (afterTrace l s)) (callThen i k s) := by
  unfold Machine.callThen
  rw [afterTrace_fcl]
  split
  · exact .callOp rfl
  · exact .returnOp rfl
  · exact hk _ (setLocals { s.fcl.locals with ret := none } s)

theorem SameAfter.shift {s' s : State} {b : Byte} (h : s' = afterTrace l s) :
    SameAfter l (shift b s') (shift b s) := by
  subst h
  unfold Machine.shift
  rw [afterTrace_bus]
  split
  · exact .ok rfl
  · exact .error _

theorem SameAfter.callIf {p : Prop} [Decidable p] {s : State} {i : Instr} {n : Nat} :
    SameAfter l (callIf p i n (afterTrace l s)) (callIf p i n s) :=
  .ite (.callThen fun _ _ => .ok rfl) (.ok rfl)

end

/-! ### Device and Transfer Engine -/

section
variable (l : List TraceRecord) (s : State)

theorem sameAfter_frameEffect (i : Instr) : SameAfter l (frameEffect i (afterTrace l s)) (frameEffect i s) := by
  cases i
  case identifyFrame | readStatusFrame | chipEraseFrame | powerDownFrame | resumeFrame | pageSizePow2Frame =>
    exact .bind fun _ => .ok rfl
  case pageEraseFrame => exact .bind fun _ => .bind fun _ => .ok rfl
  case fastReadFrame | pageProgramFrame | blockEraseFrame | bufferWriteFrame | bufferReadFrame | bufferToMainFrame |
      mainToBufferFrame =>
    exact .bind fun _ => .bind fun _ => .bind fun _ => .ok rfl
  all_goals exact .error _

theorem sameAfter_commitFrame : SameAfter l (commitFrame (afterTrace l s)) (commitFrame s) := by
  unfold commitFrame
  refine .ite ?_ (.ok rfl)
  rw [afterTrace_cfg, afterTrace_dev]
  split
  · exact sameAfter_frameEffect l (clearFrame s) _
  · exact .ok rfl
  · exact .error _
  · exact .error _

theorem sameAfter_deselectDevice : SameAfter l (deselectDevice (afterTrace l s)) (deselectDevice s) := by
  unfold deselectDevice
  rw [afterTrace_cs]
  split
  · exact .seq (sameAfter_commitFrame l s) fun _ => .ok rfl
  · exact .ok rfl

theorem sameAfter_startTransfer (c x r : Nat) :
    SameAfter l (startTransfer c x r (afterTrace l s)) (startTransfer c x r s) :=
  .bind fun _ => .seq (.shift rfl) fun _ => .ok rfl

theorem sameAfter_teWriteCall (a b : Nat) : SameAfter l (teWriteCall a b (afterTrace l s)) (teWriteCall a b s) :=
  .bind fun _ => .bind fun _ => .bind fun _ => sameAfter_startTransfer l s _ _ _

theorem sameAfter_teReadCall (a b : Nat) : SameAfter l (teReadCall a b (afterTrace l s)) (teReadCall a b s) :=
  .bind fun _ => .bind fun _ => .bind fun _ => sameAfter_startTransfer l s _ _ _

theorem sameAfter_shiftTx (d : Descriptor) : SameAfter l (shiftTx d (afterTrace l s)) (shiftTx d s) :=
  .bind fun _ => .shift rfl

theorem sameAfter_storeRx (i : Nat) (b : Byte) : SameAfter l (storeRx i b (afterTrace l s)) (storeRx i b s) :=
  .ite (.ok rfl) (.error _)

theorem sameAfter_storeResponseByte : SameAfter l (storeResponseByte (afterTrace l s)) (storeResponseByte s) :=
  .seq (sameAfter_storeRx l s _ _) fun _ => .ite (.shift rfl) (.ok rfl)

theorem sameAfter_handleByteComplete : SameAfter l (handleByteComplete (afterTrace l s)) (handleByteComplete s) := by
  unfold handleByteComplete
  rw [afterTrace_desc]
  split
  · exact .error _
  · exact .ite (sameAfter_shiftTx l s _)
      (.ite (.shift rfl) (.ite (sameAfter_shiftTx l s _) (.ok rfl)))
  · exact .ite (sameAfter_shiftTx l s _) (.ok rfl)
  · exact sameAfter_storeResponseByte l s

theorem sameAfter_busExchangeStep : SameAfter l (busExchangeStep (afterTrace l s)) (busExchangeStep s) := by
  unfold busExchangeStep
  rw [afterTrace_bus]
  split
  · exact .error _
  · rw [exchange_afterTrace]
    exact .ok rfl

theorem sameAfter_hardwareStep (i : Instr) :
    SameAfter l (hardwareStep i (afterTrace l s)) (hardwareStep i s) := by
  cases i
  case busStep => exact sameAfter_busExchangeStep l s
  case teWrite => exact sameAfter_teWriteCall l s _ _
  case teRead => exact sameAfter_teReadCall l s _ _
  case byteComplete => exact .bind fun _ => sameAfter_handleByteComplete l (handlerEntry s)
  case deviceExchange =>
    simp only [hardwareStep, exchange_afterTrace]
    exact .ok rfl
  case commit => exact sameAfter_commitFrame l s
  case deviceComplete => exact .bind fun _ => .ok rfl
  all_goals
    simp only [hardwareStep]
    exact sameAfter_frameEffect l s _

/-! ### One step of each operation -/

variable {n : Nat}

theorem sameAfter_fillStep (frame : List Byte) : SameAfter l (fillStep frame (afterTrace l s)) (fillStep frame s) :=
  .bind fun _ => .bind fun _ => .ok rfl

theorem sameAfter_selectStep : SameAfter l (.ok (selectStep (afterTrace l s))) (.ok (selectStep s)) :=
  .ok (by unfold selectStep; rw [selectDevice_afterTrace]; rfl)

theorem sameAfter_deselectStep : SameAfter l (deselectStep (afterTrace l s)) (deselectStep s) :=
  .seq (sameAfter_deselectDevice l s) fun _ => .ok rfl

theorem sameAfter_issueWriteStep (frame : List Byte) (nCmd : Nat) :
    SameAfter l (issueWriteStep frame nCmd n (afterTrace l s)) (issueWriteStep frame nCmd n s) := by
  unfold issueWriteStep
  split
  · exact sameAfter_fillStep l s frame
  · exact sameAfter_selectStep l s
  · exact .bind fun _ => .seq (sameAfter_teWriteCall l s _ _) fun _ => .ok rfl
  · exact sameAfter_deselectStep l s
  · exact .returnOp rfl
  · exact .error _

theorem sameAfter_issueReadStep (cmd : List Byte) (nResp : Nat) :
    SameAfter l (issueReadStep cmd nResp n (afterTrace l s)) (issueReadStep cmd nResp n s) := by
  unfold issueReadStep
  split
  · exact sameAfter_fillStep l s cmd
  · exact sameAfter_selectStep l s
  · exact .seq (sameAfter_teReadCall l s _ _) fun _ => .ok rfl
  · exact sameAfter_deselectStep l s
  · exact .bind fun _ => .returnOp rfl
  · exact .error _

theorem sameAfter_waitReadyStep : SameAfter l (waitReadyStep n (afterTrace l s)) (waitReadyStep n s) := by
  unfold waitReadyStep
  split
  · exact .ok rfl
  · refine .callThen fun v u => ?_
    unfold countPoll
    split
    · exact .ok rfl
    · exact .error _
  · exact .ite (.returnOp rfl) (.ok rfl)
  · exact .ite (.returnOp rfl) (.ok rfl)
  · exact .ok rfl
  · exact .error _

theorem sameAfter_identifyStep : SameAfter l (identifyStep n (afterTrace l s)) (identifyStep n s) := by
  unfold identifyStep
  split
  · refine .callThen fun v u => ?_
    unfold keepId
    split
    · exact .ok rfl
    · exact .error _
  · exact .gotoEmit rfl
  · rw [afterTrace_cfg, afterTrace_fcl]
    split
    · exact .returnOp rfl
    · exact .ok rfl
  · rw [afterTrace_fcl]
    split
    · exact .error _
    · exact .returnOp rfl
  · exact .error _

theorem sameAfter_decodeIdStep (id : List Byte) :
    SameAfter l (decodeIdStep id n (afterTrace l s)) (decodeIdStep id n s) := by
  unfold decodeIdStep
  split
  · exact .returnOp rfl
  · exact .error _

theorem sameAfter_pageOffsetStep (p : Nat) :
    SameAfter l (pageOffsetStep p n (afterTrace l s)) (pageOffsetStep p n s) := by
  unfold pageOffsetStep
  split
  · exact .bind fun _ => .returnOp rfl
  · exact .error _

theorem sameAfter_bracketClose (mb : Bool) :
    SameAfter l (bracketClose mb (afterTrace l s)) (bracketClose mb s) := by
  unfold bracketClose
  refine .ite ?_ (.ok rfl)
  rw [afterTrace_fcl]
  split
  · exact .ite (.callOp rfl) (.callOp rfl)
  · exact .returnOp rfl
  · exact .ite (.callOp rfl) (.ok rfl)

theorem sameAfter_deviceOpStep (body : TransferBody) (mb : Bool) :
    SameAfter l (deviceOpStep body mb n (afterTrace l s)) (deviceOpStep body mb n s) := by
  unfold deviceOpStep
  split
  · exact .callIf
  · exact .callIf
  · exact .callThen fun _ _ => .ok rfl
  · exact .callIf
  · exact sameAfter_bracketClose l s mb
  · exact .returnOp rfl
  · exact .error _

theorem sameAfter_keepOffset (p off : Nat) :
    SameAfter l (keepOffset p off (afterTrace l s)) (keepOffset p off s) :=
  .bind fun _ => .gotoEmit rfl

theorem sameAfter_erasePageStep (p : Nat) :
    SameAfter l (erasePageStep p n (afterTrace l s)) (erasePageStep p n s) := by
  unfold erasePageStep
  split
  · exact .bind fun off => sameAfter_keepOffset l s p off
  · exact .callThen fun _ _ => .ok rfl
  · exact .returnOp rfl
  · exact .error _

theorem sameAfter_eraseChipStep : SameAfter l (eraseChipStep n (afterTrace l s)) (eraseChipStep n s) := by
  unfold eraseChipStep
  split
  · exact .gotoEmit rfl
  · exact .callThen fun _ _ => .ok rfl
  · exact .returnOp rfl
  · exact .error _

theorem sameAfter_programPageStep (p : Nat) (b : List Byte) :
    SameAfter l (programPageStep p b n (afterTrace l s)) (programPageStep p b n s) := by
  unfold programPageStep
  split
  · exact .bind fun off => .bind fun _ => sameAfter_keepOffset l s p off
  · exact .callThen fun _ _ => .ok rfl
  · exact .returnOp rfl
  · exact .error _

theorem sameAfter_loopTest (count : Nat) :
    SameAfter l (.ok (loopTest count (afterTrace l s))) (.ok (loopTest count s)) := by
  unfold loopTest
  rw [afterTrace_fcl]
  split
  · exact .returnOp rfl
  · exact .ok rfl

theorem sameAfter_eraseBlocksStep (start count : Nat) :
    SameAfter l (eraseBlocksStep start count n (afterTrace l s)) (eraseBlocksStep start count n s) := by
  unfold eraseBlocksStep
  rw [afterTrace_fcl]
  split
  · split
    · exact .error _
    · exact .ok rfl
  · exact sameAfter_loopTest l s count
  · exact .callThen fun _ _ => .ok rfl
  · exact .error _

theorem sameAfter_programBlocksStep (start count : Nat) (b : List Byte) :
    SameAfter l (programBlocksStep start count b n (afterTrace l s)) (programBlocksStep start count b n s) := by
  unfold programBlocksStep
  rw [afterTrace_fcl]
  split
  · split
    · exact .error _
    · exact .ite (.ok rfl) (.error _)
  · exact sameAfter_loopTest l s count
  · exact .callThen fun _ _ => .ok rfl
  · exact .error _

theorem sameAfter_readBytesStep (off len : Nat) :
    SameAfter l (readBytesStep off len n (afterTrace l s)) (readBytesStep off len n s) := by
  unfold readBytesStep
  split
  · exact .bind fun _ => .gotoEmit rfl
  · exact .callThen fun _ _ => .ok rfl
  · exact .returnOp rfl
  · exact .error _

theorem sameAfter_powerDownStep : SameAfter l (powerDownStep n (afterTrace l s)) (powerDownStep n s) := by
  unfold powerDownStep
  split
  · exact .callThen fun _ _ => .ok rfl
  · exact .returnOp rfl
  · exact .error _

theorem sameAfter_resumeStep : SameAfter l (resumeStep n (afterTrace l s)) (resumeStep n s) := by
  unfold resumeStep
  split
  · exact .callThen fun _ _ => .ok rfl
  · exact .ok rfl
  · exact .returnOp rfl
  · exact .error _

theorem sameAfter_reprogramPageSizeStep :
    SameAfter l (reprogramPageSizeStep n (afterTrace l s)) (reprogramPageSizeStep n s) := by
  unfold reprogramPageSizeStep
  split
  · exact .callThen fun _ _ => .ok rfl
  · exact .returnOp rfl
  · exact .error _

theorem sameAfter_initIdentify : SameAfter l (initIdentify (afterTrace l s)) (initIdentify s) := by
  unfold initIdentify
  rw [afterTrace_fcl]
  split
  · exact .returnEmit rfl
  · exact .callThen fun _ _ => .ok rfl

theorem sameAfter_initStep : SameAfter l (initStep n (afterTrace l s)) (initStep n s) := by
  unfold initStep
  split
  · exact .seq (sameAfter_deselectDevice l s) fun _ => .ok rfl
  · exact .callThen fun _ _ => .ok rfl
  · exact sameAfter_initIdentify l s
  · refine .callThen fun v u => ?_
    unfold keepStatus
    split
    · exact .ok rfl
    · exact .error _
  · exact .ite (.ok rfl) (.callThen fun _ _ => .returnEmit rfl)
  · exact .callIf
  · exact .returnEmit rfl
  · exact .error _

theorem sameAfter_opStep (i : Instr) : SameAfter l (opStep i n (afterTrace l s)) (opStep i n s) := by
  cases i
  case issueWrite => exact sameAfter_issueWriteStep l s _ _
  case issueRead => exact sameAfter_issueReadStep l s _ _
  case waitReady => exact sameAfter_waitReadyStep l s
  case identify => exact sameAfter_identifyStep l s
  case decodeId => exact sameAfter_decodeIdStep l s _
  case pageOffset => exact sameAfter_pageOffsetStep l s _
  case deviceOp => exact sameAfter_deviceOpStep l s _ _
  case erasePage => exact sameAfter_erasePageStep l s _
  case eraseChip => exact sameAfter_eraseChipStep l s
  case programPage => exact sameAfter_programPageStep l s _ _
  case eraseBlocks => exact sameAfter_eraseBlocksStep l s _ _
  case programBlocks => exact sameAfter_programBlocksStep l s _ _ _
  case readBytes => exact sameAfter_readBytesStep l s _ _
  case powerDown => exact sameAfter_powerDownStep l s
  case resume => exact sameAfter_resumeStep l s
  case reprogramPageSize => exact sameAfter_reprogramPageSizeStep l s
  case init => exact sameAfter_initStep l s
  all_goals exact .error _

end

/-! ### Instructions -/

/-- An outcome with its next state, where it has one, changed by `f`. -/
def mapNext (f : State → State) : Host.Outcome State Fault Refusal → Host.Outcome State Fault Refusal
  | .next t => .next (f t)
  | .fault r => .fault r
  | .refused r => .refused r

theorem finish_afterTrace {l : List TraceRecord} {s : State} {r' r : Act State} (h : SameAfter l r' r) :
    finish (afterTrace l s) r' = mapNext (afterTrace l) (finish s r) := by
  unfold SameAfter at h
  subst h
  rcases r with (f | _ | _) | t
  · exact congrArg Host.Outcome.next (recordFault_afterTrace l f s)
  · rfl
  · rfl
  · rfl

/-- An operation acts at the same step, in the same state but for the records before the trace. -/
theorem atStep_afterTrace (l : List TraceRecord) (i : Instr) (s : State) :
    atStep i (afterTrace l s) = (atStep i s).map fun p => (p.1, afterTrace l p.2) := by
  unfold atStep
  rw [afterTrace_fg, afterTrace_fcl]
  split
  · split
    · rfl
    · split <;> rfl
  · rfl

/-- Records before the trace change nothing that an instruction answers but the trace. -/
theorem exec_afterTrace (l : List TraceRecord) (i : Instr) (s : State) :
    exec i (afterTrace l s) = mapNext (afterTrace l) (exec i s) := by
  cases hi : i.isFclOp with
  | true =>
    rw [exec_of_isFclOp hi, exec_of_isFclOp hi]
    refine finish_afterTrace ?_
    rw [atStep_afterTrace]
    cases atStep i s with
    | ok p => exact sameAfter_opStep l p.2 i
    | error e => exact .error e
  | false =>
    rw [exec_of_not_isFclOp hi, exec_of_not_isFclOp hi]
    exact finish_afterTrace (sameAfter_hardwareStep l s i)

/-- Settles O19: either trace is a list of records before the empty one. -/
theorem traceIsNeverConsulted : Obligations.TraceIsNeverConsulted := by
  intro i s t tr h
  have from_empty (l : List TraceRecord) : { s with trace := l } = afterTrace l { s with trace := [] } := by
    simp [afterTrace]
  have hs : exec i s = mapNext (afterTrace s.trace) (exec i { s with trace := [] }) := by
    rw [← exec_afterTrace, ← from_empty]
  rw [from_empty tr, exec_afterTrace]
  rw [h] at hs
  cases h0 : exec i { s with trace := [] } with
  | next u =>
    rw [h0] at hs
    cases hs
    exact ⟨tr ++ u.trace, rfl⟩
  | fault r => simp [h0, mapNext] at hs
  | refused r => simp [h0, mapNext] at hs

end Sys2Proof.Machine
end

section
/-! SUPPORT. The receive buffer and the device array (20 R72, R73): which instructions can write them. -/

namespace Sys2Proof.Machine

/-! ### What control moves and engine steps keep -/

theorem ControlOnly.rx {s t : State} (h : ControlOnly s t) : t.rx = s.rx := by rw [h]
theorem ControlOnly.dev {s t : State} (h : ControlOnly s t) : t.dev = s.dev := by rw [h]

/-- Starting a transfer writes the descriptor, the foreground and the bus alone (R143, R144). -/
theorem startTransfer_eq {c x r : Nat} {s t : State} (h : startTransfer c x r s = .ok t) :
    t = { s with desc := t.desc, fg := t.fg, bus := t.bus } := by
  obtain ⟨b, -, -, rfl⟩ := startTransfer_ok_iff.1 h
  rfl

theorem teWriteCall_eq {nCmd nData : Nat} {s t : State} (h : teWriteCall nCmd nData s = .ok t) :
    t = { s with desc := t.desc, fg := t.fg, bus := t.bus } := by
  obtain ⟨-, -, -, h⟩ := teWriteCall_ok_iff.1 h
  exact startTransfer_eq h

theorem teReadCall_eq {nCmd nResp : Nat} {s t : State} (h : teReadCall nCmd nResp s = .ok t) :
    t = { s with desc := t.desc, fg := t.fg, bus := t.bus } := by
  obtain ⟨-, -, -, h⟩ := teReadCall_ok_iff.1 h
  exact startTransfer_eq h

theorem storeResponseByte_dev {s t : State} (h : storeResponseByte s = .ok t) : t.dev = s.dev := by
  obtain ⟨-, h⟩ := storeResponseByte_ok_iff.1 h
  dsimp only at h
  split at h
  · obtain ⟨-, rfl⟩ := shift_ok_iff.1 h
    rfl
  · subst h
    rfl

/-- The handler leaves the device, and RX too unless it stores a response byte (R146 to R151). -/
theorem handleByteComplete_keeps {s t : State} (h : handleByteComplete s = .ok t) :
    t.dev = s.dev ∧ (t.rx = s.rx ∨ s.desc.mode = .receivingDataBytes) := by
  cases handleByteComplete_cases h with
  | commandByte _ _ h | firstPayload _ _ _ _ h | payloadByte _ _ h =>
    obtain ⟨b, -, -, rfl⟩ := shiftTx_ok_iff.1 h
    exact ⟨rfl, .inl rfl⟩
  | response _ _ _ h =>
    obtain ⟨-, rfl⟩ := shift_ok_iff.1 h
    exact ⟨rfl, .inl rfl⟩
  | commandOnly _ _ _ _ h | payloadSent _ _ h =>
    subst h
    exact ⟨rfl, .inl rfl⟩
  | responseByte hm h => exact ⟨storeResponseByte_dev h, .inr hm⟩

/-! ### The receive buffer -/

theorem TransferStep.rx {s t : State} (h : TransferStep s t) : t.rx = s.rx := by
  cases h with
  | rest | fill => rfl
  | select => exact selectDevice_rx s
  | write h => rw [teWriteCall_eq h]
  | read h => rw [teReadCall_eq h]
  | deselect h => rw [deselectDevice_eq h]

theorem OpEffect.rx {i : Instr} {n : Nat} {s t : State} (h : OpEffect i n s t) : t.rx = s.rx := by
  cases h with
  | control | identified => rfl
  | issueWrite _ h | issueRead _ h => exact h.rx
  | deselect _ _ h => rw [deselectDevice_eq h]

theorem hardwareStep_rx {i : Instr} {s t : State} (h : hardwareStep i s = .ok t) :
    t.rx = s.rx ∨ (i = .byteComplete ∧ s.desc.mode = .receivingDataBytes) := by
  cases i
  case busStep =>
    obtain ⟨b, -, rfl⟩ := busExchangeStep_ok_iff.1 h
    exact .inl (by rw [exchange_state])
  case teWrite => exact .inl (by rw [teWriteCall_eq h])
  case teRead => exact .inl (by rw [teReadCall_eq h])
  case byteComplete =>
    obtain ⟨-, h⟩ := byteCompleteStep_ok_iff.1 h
    exact (handleByteComplete_keeps h).2.imp id fun hm => ⟨rfl, hm⟩
  case deviceExchange =>
    cases h
    exact .inl (by rw [exchange_state])
  case commit => exact .inl (by rw [(commitFrame_ok h).1])
  case deviceComplete =>
    obtain ⟨-, h⟩ := check_bind_ok_iff.1 h
    cases h
    exact .inl rfl
  all_goals
    simp only [hardwareStep] at h
    exact .inl (by rw [(frameEffect_ok h).1])

/-- Settles O15: a recorded fault and an operation's step keep RX; of the other bodies only the handler's writes it. -/
theorem rxIsWrittenOnlyByTheReceivingHandler : Obligations.RxIsWrittenOnlyByTheReceivingHandler := by
  intro i s t h hne
  rcases exec_next h with ⟨f, rfl⟩ | ⟨n, u, -, hu, ht⟩ | ⟨-, ht⟩
  · exact absurd (recordFault_rx f s) hne
  · obtain ⟨v, hv, hc⟩ := opStep_ok ht
    exact absurd (by rw [hc.rx, hv.rx, (controlOnly_atStep hu).rx]) hne
  · exact (hardwareStep_rx ht).resolve_left hne

/-! ### The device array -/

/-- The instructions that can write the array: the five storing frames, and what can commit a frame (R73, R82). -/
def MayWriteArray (i : Instr) (s : State) : Prop :=
  (∃ o l, i = .pageProgramFrame o l) ∨ (∃ o, i = .pageEraseFrame o) ∨ i = .chipEraseFrame ∨
    (∃ o, i = .blockEraseFrame o) ∨ (∃ o, i = .bufferToMainFrame o) ∨ i = .commit ∨
    ((∃ f n, i = .issueWrite f n) ∧ s.cs = .low) ∨ ((∃ f n, i = .issueRead f n) ∧ s.cs = .low) ∨
    (i = .init ∧ s.cs = .low)

@[simp] theorem selectDevice_array (s : State) : (selectDevice s).dev.array = s.dev.array := by
  unfold selectDevice; split <;> rfl

theorem exchange_array (b : Byte) (s : State) : (exchange b s).2.dev.array = s.dev.array := by
  rw [exchange_state]
  dsimp only
  split <;> rfl

theorem deselectDevice_array {s t : State} (h : deselectDevice s = .ok t) :
    s.cs = .low ∨ t.dev.array = s.dev.array := by
  rcases deselectDevice_ok_iff.1 h with ⟨hcs, -⟩ | ⟨-, rfl⟩
  · exact .inl hcs
  · exact .inr rfl

theorem TransferStep.array {s t : State} (h : TransferStep s t) : s.cs = .low ∨ t.dev.array = s.dev.array := by
  cases h with
  | rest | fill => exact .inr rfl
  | select => exact .inr (selectDevice_array s)
  | write h => exact .inr (by rw [teWriteCall_eq h])
  | read h => exact .inr (by rw [teReadCall_eq h])
  | deselect h => exact deselectDevice_array h

theorem OpEffect.array {i : Instr} {n : Nat} {s t : State} (h : OpEffect i n s t) :
    MayWriteArray i s ∨ t.dev.array = s.dev.array := by
  cases h with
  | control | identified => exact .inr rfl
  | issueWrite hi h => exact h.array.imp_left fun hcs => by simp [MayWriteArray, hi, hcs]
  | issueRead hi h => exact h.array.imp_left fun hcs => by simp [MayWriteArray, hi, hcs]
  | deselect hi _ h => exact (deselectDevice_array h).imp_left fun hcs => by simp [MayWriteArray, hi, hcs]

theorem frameEffect_array {i : Instr} {s t : State} (h : frameEffect i s = .ok t) :
    MayWriteArray i s ∨ t.dev.array = s.dev.array := by
  obtain ⟨-, -, -, h⟩ := frameEffect_ok h
  rcases h with h | h | h | h | h | h <;> simp [MayWriteArray, h]

theorem hardwareStep_array {i : Instr} {s t : State} (h : hardwareStep i s = .ok t) :
    MayWriteArray i s ∨ t.dev.array = s.dev.array := by
  cases i
  case busStep =>
    obtain ⟨b, -, rfl⟩ := busExchangeStep_ok_iff.1 h
    exact .inr (exchange_array b s)
  case teWrite => exact .inr (by rw [teWriteCall_eq h])
  case teRead => exact .inr (by rw [teReadCall_eq h])
  case byteComplete =>
    obtain ⟨-, h⟩ := byteCompleteStep_ok_iff.1 h
    exact .inr (by rw [(handleByteComplete_keeps h).1, handlerEntry_dev])
  case deviceExchange b =>
    cases h
    exact .inr (exchange_array b s)
  case commit => exact .inl (by simp [MayWriteArray])
  case deviceComplete =>
    obtain ⟨-, h⟩ := check_bind_ok_iff.1 h
    cases h
    exact .inr rfl
  all_goals
    simp only [hardwareStep] at h
    exact frameEffect_array h

/-- Where an instruction is none of those that can write the array, it keeps the array as it is. -/
theorem exec_array {i : Instr} {s t : State} (h : exec i s = .next t) :
    MayWriteArray i s ∨ t.dev.array = s.dev.array := by
  rcases exec_next h with ⟨f, rfl⟩ | ⟨n, u, -, hu, ht⟩ | ⟨-, ht⟩
  · exact .inr (by rw [recordFault_dev])
  · obtain ⟨v, hv, hc⟩ := opStep_ok ht
    have hu := controlOnly_atStep hu
    simpa only [MayWriteArray, hc.dev, hu.dev, hu.cs] using hv.array
  · exact hardwareStep_array ht

/-- Settles O18: an array that is kept reads as before at every offset. -/
theorem arrayChangesOnlyByStoringFrames : Obligations.ArrayChangesOnlyByStoringFrames :=
  fun _ _ _ h => (exec_array h).imp id fun ha _ => by rw [ha]

end Sys2Proof.Machine
end

section
/-! SUPPORT. The encoding (30 R101, R102, R120): the decoder is a table from first bytes to the decoders of what
follows them, so that where no first byte occurs twice, a frame's own row is the row that reads it. -/

namespace Sys2Proof

/-! ### The operands after the first byte -/

/-- The three offset bytes carry the whole offset (R102). -/
@[simp] theorem offsetOf_addr3 (off : Offset) :
    offsetOf (off.extractLsb' 16 8) (off.extractLsb' 8 8) (off.extractLsb' 0 8) = off := by
  rw [offsetOf, BitVec.extractLsb'_append_extractLsb'_eq_extractLsb' (by rfl),
    BitVec.extractLsb'_append_extractLsb'_eq_extractLsb' (by rfl)]
  exact BitVec.extractLsb'_eq_self

@[simp] theorem decodeAddr_addr3 (mk : Offset → Instr) (off : Offset) :
    decodeAddr mk (addr3 off) = .ok (mk off) := by
  simp [addr3, decodeAddr]

@[simp] theorem decodeProg_addr3_append (mk : Offset → List Byte → Instr) (off : Offset) (payload : List Byte) :
    decodeProg mk (addr3 off ++ payload) = .ok (mk off payload) := by
  simp [addr3, decodeProg]

@[simp] theorem decodeRead_addr3_append (mk : Offset → Nat → Instr) (off : Offset) (dummy : Byte)
    (tail : List Byte) : decodeRead mk (addr3 off ++ dummy :: tail) = .ok (mk off tail.length) := by
  simp [addr3, decodeRead]

@[simp] theorem decodeSeq4_tail (q : Seq4) (i : Instr) : decodeSeq4 q i [q.s1, q.s2, q.s3] = .ok i := by
  simp [decodeSeq4]

/-! ### The decoder as a table -/

/-- What reads the bytes of a frame after the first. -/
abbrev TailDecoder := List Byte → Except DecodeError Instr

/-- The fourteen first bytes, each with what reads the rest of its frame (R101, R120, R121). -/
def Config.decoders (c : Config) : List (Byte × TailDecoder) :=
  [(c.opcIdentify, fun rest => .ok (.identifyFrame rest.length)),
   (c.opcStatus, fun rest => .ok (.readStatusFrame rest.length)),
   (c.opcFastRead, decodeRead .fastReadFrame),
   (c.opcProgThruBuf, decodeProg .pageProgramFrame),
   (c.opcPageErase, decodeAddr .pageEraseFrame),
   (c.opcBlockErase, decodeAddr .blockEraseFrame),
   (c.opcBufWrite, decodeProg .bufferWriteFrame),
   (c.opcBufRead, decodeRead .bufferReadFrame),
   (c.opcBufToMainErase, decodeAddr .bufferToMainFrame),
   (c.opcMainToBuf, decodeAddr .mainToBufferFrame),
   (c.opcPowerDown, decodeOp1 .powerDownFrame),
   (c.opcResume, decodeOp1 .resumeFrame),
   (c.seqChipErase.s0, decodeSeq4 c.seqChipErase .chipEraseFrame),
   (c.seqPow2.s0, decodeSeq4 c.seqPow2 .pageSizePow2Frame)]

/-- The first row of `table` under `op` reads `rest`; a first byte without a row is unknown (R242). -/
def dispatch : List (Byte × TailDecoder) → Byte → TailDecoder
  | [], _, _ => .error .unknownCommand
  | (b, d) :: table, op, rest => if op = b then d rest else dispatch table op rest

theorem decode_cons (c : Config) (op : Byte) (rest : List Byte) :
    decode c (op :: rest) = dispatch c.decoders op rest := rfl

theorem map_fst_decoders (c : Config) : c.decoders.map Prod.fst = c.firstBytes := rfl

/-- Where no first byte occurs twice, every row of the table is the first under its byte. -/
theorem dispatch_of_mem {table : List (Byte × TailDecoder)} {op : Byte} {d : TailDecoder}
    (hdistinct : allDistinct (table.map Prod.fst) = true) (hmem : (op, d) ∈ table) (rest : List Byte) :
    dispatch table op rest = d rest := by
  induction table with
  | nil => cases hmem
  | cons row table ih =>
    obtain ⟨b, e⟩ := row
    simp only [List.map_cons, allDistinct, Bool.and_eq_true, Bool.not_eq_true', List.contains_eq_mem,
      decide_eq_false_iff_not] at hdistinct
    obtain ⟨hnot, hrest⟩ := hdistinct
    rcases List.mem_cons.1 hmem with heq | hmem
    · cases heq
      exact if_pos rfl
    · have hne : op ≠ b := fun h => hnot (h ▸ List.mem_map_of_mem hmem)
      exact (if_neg hne).trans (ih hrest hmem)

/-- R120: at distinct first bytes the row of a frame's first byte reads the frame. -/
theorem decode_of_mem_decoders {c : Config} {op : Byte} {d : TailDecoder} (hc : c.firstBytesDistinct = true)
    (hmem : (op, d) ∈ c.decoders) (rest : List Byte) : decode c (op :: rest) = d rest := by
  rw [decode_cons]
  exact dispatch_of_mem (by rwa [map_fst_decoders]) hmem rest

/-! ### Frames -/

/-- Some row of the table at `c` stands under the first byte of the encoding of `i` and reads its rest as `i`. -/
def HasRow (c : Config) (i : Instr) : Prop :=
  ∃ op d rest, encode c i = some (op :: rest) ∧ (op, d) ∈ c.decoders ∧ d rest = .ok i

theorem hasRow_of_isFrame (c : Config) {i : Instr} (hi : i.isFrame = true) : HasRow c i := by
  cases i
  case identifyFrame =>
    exact ⟨_, fun rest => .ok (.identifyFrame rest.length), _, rfl, by simp [Config.decoders], by simp⟩
  case readStatusFrame =>
    exact ⟨_, fun rest => .ok (.readStatusFrame rest.length), _, rfl, by simp [Config.decoders], by simp⟩
  case fastReadFrame =>
    exact ⟨_, decodeRead .fastReadFrame, _, rfl, by simp [Config.decoders], by simp⟩
  case pageProgramFrame =>
    exact ⟨_, decodeProg .pageProgramFrame, _, rfl, by simp [Config.decoders], decodeProg_addr3_append ..⟩
  case pageEraseFrame =>
    exact ⟨_, decodeAddr .pageEraseFrame, _, rfl, by simp [Config.decoders], decodeAddr_addr3 ..⟩
  case chipEraseFrame =>
    exact ⟨_, decodeSeq4 c.seqChipErase .chipEraseFrame, _, rfl, by simp [Config.decoders], decodeSeq4_tail ..⟩
  case blockEraseFrame =>
    exact ⟨_, decodeAddr .blockEraseFrame, _, rfl, by simp [Config.decoders], decodeAddr_addr3 ..⟩
  case bufferWriteFrame =>
    exact ⟨_, decodeProg .bufferWriteFrame, _, rfl, by simp [Config.decoders], decodeProg_addr3_append ..⟩
  case bufferReadFrame =>
    exact ⟨_, decodeRead .bufferReadFrame, _, rfl, by simp [Config.decoders], by simp⟩
  case bufferToMainFrame =>
    exact ⟨_, decodeAddr .bufferToMainFrame, _, rfl, by simp [Config.decoders], decodeAddr_addr3 ..⟩
  case mainToBufferFrame =>
    exact ⟨_, decodeAddr .mainToBufferFrame, _, rfl, by simp [Config.decoders], decodeAddr_addr3 ..⟩
  case powerDownFrame =>
    exact ⟨_, decodeOp1 .powerDownFrame, _, rfl, by simp [Config.decoders], rfl⟩
  case resumeFrame =>
    exact ⟨_, decodeOp1 .resumeFrame, _, rfl, by simp [Config.decoders], rfl⟩
  case pageSizePow2Frame =>
    exact ⟨_, decodeSeq4 c.seqPow2 .pageSizePow2Frame, _, rfl, by simp [Config.decoders], decodeSeq4_tail ..⟩
  all_goals cases hi

/-- Settles O2: the row of a frame's first byte reads the frame back, and distinctness makes it the row in force. -/
theorem encodedFramesDecodeBack : Obligations.EncodedFramesDecodeBack := by
  intro c i hc hi
  obtain ⟨op, d, rest, henc, hmem, hread⟩ := hasRow_of_isFrame c hi
  exact ⟨op :: rest, henc, (decode_of_mem_decoders hc hmem rest).trans hread⟩

/-- Settles O1: the decoder evaluated on each of the nine words. -/
theorem specWordsDecode : Obligations.SpecWordsDecode := by
  unfold Obligations.SpecWordsDecode
  decide

end Sys2Proof
end

section
/-! SUPPORT. The Transfer Engine, rule by rule (40 R141 to R152): what a call, an exchange and the handler answer. -/

namespace Sys2Proof.Machine

/-! ### The two calls (R143, R144) -/

/-- The two blocking calls in one: they differ in the capacity check `fits` and in the counters of the descriptor. -/
def teCall (nCmd : Nat) (fits : Prop) [Decidable fits] (cmd tx rx : Nat) (s : State) : Act State := do
  require (s.desc.mode = .idle) (.raise .transferInFlight)
  require (1 ≤ nCmd) (.raise .emptyFrame)
  require fits (.raise .bufferOverflow)
  startTransfer cmd tx rx s

theorem exec_teWrite (nCmd nData : Nat) (s : State) : exec (.teWrite nCmd nData) s =
    finish s (teCall nCmd (nCmd + nData ≤ s.cfg.bufCap) (nCmd - 1) (nCmd - 1 + nData) 0 s) := rfl

theorem exec_teRead (nCmd nResp : Nat) (s : State) : exec (.teRead nCmd nResp) s =
    finish s (teCall nCmd (nCmd ≤ s.cfg.bufCap ∧ nResp ≤ s.cfg.bufCap) (nCmd - 1) (nCmd - 1) nResp s) := rfl

section
variable {s : State} {nCmd cmd tx rx : Nat} {fits : Prop} [Decidable fits]

theorem teCall_starts {b : Byte} (hm : s.desc.mode = .idle) (hn : 1 ≤ nCmd) (hf : fits) (hb : s.tx[0]? = some b)
    (hr : s.bus.state = .ready) :
    finish s (teCall nCmd fits cmd tx rx s) = .next { s with
      desc := ⟨.sendingCommandBytes, b, 1, tx, 0, rx, cmd⟩, bus := { s.bus with state := .shifting b },
      fg := .asleep } := by
  simp only [teCall, require_of, hm, hn, hf, bind_ok, startTransfer_ok_iff.2 ⟨b, hb, hr, rfl⟩, finish_ok]

theorem teCall_inFlight (hm : s.desc.mode ≠ .idle) :
    finish s (teCall nCmd fits cmd tx rx s) = .next (recordFault .transferInFlight s) := by
  rw [teCall, require_of_not hm, bind_error, finish_raise]

theorem teCall_emptyFrame (hm : s.desc.mode = .idle) (hn : ¬ 1 ≤ nCmd) :
    finish s (teCall nCmd fits cmd tx rx s) = .next (recordFault .emptyFrame s) := by
  rw [teCall, require_of hm, bind_ok, require_of_not hn, bind_error, finish_raise]

theorem teCall_overflow (hm : s.desc.mode = .idle) (hn : 1 ≤ nCmd) (hf : ¬ fits) :
    finish s (teCall nCmd fits cmd tx rx s) = .next (recordFault .bufferOverflow s) := by
  rw [teCall, require_of hm, bind_ok, require_of hn, bind_ok, require_of_not hf, bind_error, finish_raise]

theorem startTransfer_overrun (ht : 0 < s.tx.length) (hr : s.bus.state ≠ .ready) :
    startTransfer cmd tx rx s = .error (.raise .busOverrun) := by
  rw [startTransfer, readTx_of_lt ht, bind_ok]
  exact bind_error_iff.2 (.inl (shift_error_iff.2 ⟨hr, rfl⟩))

theorem teCall_overrun (hm : s.desc.mode = .idle) (hn : 1 ≤ nCmd) (hf : fits) (ht : 0 < s.tx.length)
    (hr : s.bus.state ≠ .ready) :
    finish s (teCall nCmd fits cmd tx rx s) = .next (recordFault .busOverrun s) := by
  rw [teCall, require_of hm, bind_ok, require_of hn, bind_ok, require_of hf, bind_ok, startTransfer_overrun ht hr,
    finish_raise]

end

/-- Settles O20: the call's checks in the order R143 lists them, the frame against the buffer as one length. -/
theorem teWriteStartsATransfer : Obligations.TeWriteStartsATransfer := by
  intro s nCmd nData
  simp only [exec_teWrite]
  exact ⟨fun _ => teCall_starts, teCall_inFlight, fun hm hn => teCall_emptyFrame hm (by omega),
    fun hm hn hc => teCall_overflow hm hn (by omega), teCall_overrun⟩

/-- Settles O21: as O20, with command and response each against its own buffer. -/
theorem teReadStartsATransfer : Obligations.TeReadStartsATransfer := by
  intro s nCmd nResp
  simp only [exec_teRead]
  exact ⟨fun _ hm hn hc hr => teCall_starts hm hn ⟨hc, hr⟩, teCall_inFlight,
    fun hm hn => teCall_emptyFrame hm (by omega), fun hm hn hc => teCall_overflow hm hn (by omega),
    fun hm hn hc hr => teCall_overrun hm hn ⟨hc, hr⟩⟩

/-! ### The bus shifter (R141) -/

theorem exchange_low {b : Byte} {s : State} (h : s.cs = .low) : exchange b s =
    (if s.cfg.devPresent then deviceOutput s (Config.freeByte s.draws) else Config.freeByte s.draws,
      { s with draws := s.draws + 1, dev := { s.dev with frame := s.dev.frame ++ [b] } }) := by
  simp [exchange, h]

theorem exchange_high {b : Byte} {s : State} (h : s.cs = .high) :
    exchange b s = (Config.freeByte s.draws, { s with draws := s.draws + 1 }) := by
  simp [exchange, h]

theorem exec_busStep {b : Byte} {s : State} (h : s.bus.state = .shifting b) :
    exec .busStep s = .next { (exchange b s).2 with bus := ⟨.ready, true, (exchange b s).1⟩ } :=
  congrArg (finish s) (busExchangeStep_ok_iff.2 ⟨b, h, rfl⟩)

/-- Settles O25: the exchange at either level of chip select. -/
theorem busStepExchangesOneByte : Obligations.BusStepExchangesOneByte := by
  intro s b hb
  rw [exec_busStep hb]
  exact ⟨fun h => by rw [exchange_low h], fun h => by rw [exchange_high h]⟩

/-! ### The handler (R145 to R152) -/

theorem handleByteComplete_of_case {s t : State} (h : HandlerCase s t) : handleByteComplete s = .ok t := by
  cases h with
  | commandByte hm hc h => simp [handleByteComplete, hm, hc, h]
  | response hm hc hr h => simp [handleByteComplete, hm, hc, hr, h]
  | firstPayload hm hc hr hx h => simp [handleByteComplete, hm, hc, hr, hx, h]
  | commandOnly hm hc hr hx h => simp [handleByteComplete, hm, hc, hr, hx, h]
  | payloadByte hm hx h => simp [handleByteComplete, hm, hx, h]
  | payloadSent hm hx h => simp [handleByteComplete, hm, hx, h]
  | responseByte hm h => simp [handleByteComplete, hm, h]

theorem exec_byteComplete (s : State) : exec .byteComplete s = finish s (byteCompleteStep s) := rfl

/-- Where R270 enables the handler, BYTE_COMPLETE is the handler's dispatch after its entry. -/
theorem exec_byteComplete_enabled {s : State} (h : handlerEnabled s) :
    exec .byteComplete s = finish s (handleByteComplete (handlerEntry s)) := by
  rw [exec_byteComplete, byteCompleteStep, require_of h, bind_ok]

/-- Where the handler is not enabled there is no step (R145, log 3). -/
theorem exec_byteComplete_not_enabled {s : State} (h : ¬ handlerEnabled s) :
    exec .byteComplete s = .refused .notEnabled := by
  rw [exec_byteComplete, byteCompleteStep, require_of_not h, bind_error, finish_refuse]

theorem exec_byteComplete_of_case {s t : State} (he : handlerEnabled s) (h : HandlerCase (handlerEntry s) t) :
    exec .byteComplete s = .next t := by
  rw [exec_byteComplete_enabled he, handleByteComplete_of_case h, finish_ok]

/-- Settles O22: the four cases of the handler in the command phase. -/
theorem handlerInTheCommandPhase : Obligations.HandlerInTheCommandPhase := by
  intro s hp hf hr hm
  have he : handlerEnabled s := ⟨hp, hf, hr⟩
  refine ⟨fun b hc hb => ?_, fun hc hx => ?_, fun b hc hx ht hb => ?_, fun hc hx ht => ?_⟩
  · exact exec_byteComplete_of_case he (.commandByte hm hc (shiftTx_ok_iff.2 ⟨b, hb, hr, rfl⟩))
  · exact exec_byteComplete_of_case he (.response hm hc hx (shift_ok_iff.2 ⟨hr, rfl⟩))
  · exact exec_byteComplete_of_case he (.firstPayload hm hc hx ht (shiftTx_ok_iff.2 ⟨b, hb, hr, rfl⟩))
  · exact exec_byteComplete_of_case he (.commandOnly hm hc hx ht rfl)

/-- R151 where another response byte is due. -/
theorem storeResponseByte_more {s : State} (hr : s.bus.state = .ready) (hlt : s.desc.rxCursor < s.rx.length)
    (hx : 1 < s.desc.rxRemaining) :
    storeResponseByte s = .ok { s with
      rx := s.rx.set s.desc.rxCursor s.bus.rx
      bus := { s.bus with state := .shifting s.cfg.filler }
      desc := { s.desc with rxCursor := s.desc.rxCursor + 1, rxRemaining := s.desc.rxRemaining - 1 } } := by
  have hpos : 0 < s.desc.rxRemaining - 1 := by omega
  refine storeResponseByte_ok_iff.2 ⟨hlt, ?_⟩
  dsimp only
  rw [if_pos hpos]
  exact shift_ok_iff.2 ⟨hr, rfl⟩

/-- R151 at the last response byte. -/
theorem storeResponseByte_last {s : State} (hlt : s.desc.rxCursor < s.rx.length) (hx : s.desc.rxRemaining = 1) :
    storeResponseByte s = .ok (finishTransfer { s with
      rx := s.rx.set s.desc.rxCursor s.bus.rx
      desc := { s.desc with rxCursor := s.desc.rxCursor + 1, rxRemaining := 0 } }) := by
  refine storeResponseByte_ok_iff.2 ⟨hlt, ?_⟩
  simp [hx]

/-- Settles O23: the two cases of the payload phase, and the two of the response phase. -/
theorem handlerInTheDataPhases : Obligations.HandlerInTheDataPhases := by
  intro s hp hf hr
  have he : handlerEnabled s := ⟨hp, hf, hr⟩
  refine ⟨fun b hm hx hb => ?_, fun hm hx => ?_, fun hm hlt hx => ?_, fun hm hlt hx => ?_⟩
  · dsimp only
    rw [hm]
    exact exec_byteComplete_of_case he (.payloadByte hm hx (shiftTx_ok_iff.2 ⟨b, hb, hr, rfl⟩))
  · exact exec_byteComplete_of_case he (.payloadSent hm hx rfl)
  · exact exec_byteComplete_of_case he (.responseByte hm (storeResponseByte_more hr hlt hx))
  · exact exec_byteComplete_of_case he (.responseByte hm (storeResponseByte_last hlt hx))

/-- Settles O24: the handler's case for Idle, and the check before its dispatch. -/
theorem handlerOutsideATransfer : Obligations.HandlerOutsideATransfer := by
  refine fun s => ⟨fun hp hf hr hm => ?_, fun h => exec_byteComplete_not_enabled ?_⟩
  · rw [exec_byteComplete_enabled ⟨hp, hf, hr⟩]
    simp [handleByteComplete, hm]
  · rintro ⟨hp, hf, hr⟩
    rcases h with h | h | h
    · simp [hp] at h
    · simp [hf] at h
    · exact h hr

end Sys2Proof.Machine
end

section
/-! SUPPORT. A whole transfer (40 R154 to R157): the state at each exchange written out, from the call to the handler's
last act. A write and a read are one development: `nTx` bytes of TX go out, then `nResp` fillers, and what the device
answers to the fillers goes to RX. -/

namespace Sys2Proof.Machine

/-! ### A state in the middle of a transfer -/

/-- The state of a transfer begun in `s`, when the selected device has received `sent`: the descriptor is `d`, RX
holds `rx` and the shifter is `bus`. -/
def midTransfer (s : State) (sent rx : List Byte) (d : Descriptor) (bus : Bus) : State :=
  { s with
    desc := d, rx := rx, fg := .asleep, bus := bus, draws := s.draws + sent.length
    dev := { s.dev with frame := s.dev.frame ++ sent } }

@[simp] theorem midTransfer_cfg (s : State) (sent rx : List Byte) (d : Descriptor) (bus : Bus) :
    (midTransfer s sent rx d bus).cfg = s.cfg := rfl
@[simp] theorem midTransfer_tx (s : State) (sent rx : List Byte) (d : Descriptor) (bus : Bus) :
    (midTransfer s sent rx d bus).tx = s.tx := rfl
@[simp] theorem midTransfer_rx (s : State) (sent rx : List Byte) (d : Descriptor) (bus : Bus) :
    (midTransfer s sent rx d bus).rx = rx := rfl
@[simp] theorem midTransfer_fg (s : State) (sent rx : List Byte) (d : Descriptor) (bus : Bus) :
    (midTransfer s sent rx d bus).fg = .asleep := rfl
@[simp] theorem midTransfer_cs (s : State) (sent rx : List Byte) (d : Descriptor) (bus : Bus) :
    (midTransfer s sent rx d bus).cs = s.cs := rfl
@[simp] theorem midTransfer_fcl (s : State) (sent rx : List Byte) (d : Descriptor) (bus : Bus) :
    (midTransfer s sent rx d bus).fcl = s.fcl := rfl
@[simp] theorem midTransfer_dev (s : State) (sent rx : List Byte) (d : Descriptor) (bus : Bus) :
    (midTransfer s sent rx d bus).dev = { s.dev with frame := s.dev.frame ++ sent } := rfl
@[simp] theorem midTransfer_faults (s : State) (sent rx : List Byte) (d : Descriptor) (bus : Bus) :
    (midTransfer s sent rx d bus).faults = s.faults := rfl

/-- The byte the device returns in the exchange after it has received `sent` (R221; free where it is missing). -/
def answer (s : State) (sent : List Byte) : Byte :=
  let free := Config.freeByte (s.draws + sent.length)
  if s.cfg.devPresent then deviceOutput { s with dev := { s.dev with frame := s.dev.frame ++ sent } } free else free

/-- One exchange of a transfer (R141). -/
theorem exec_busStep_midTransfer {s : State} {sent rx : List Byte} {d : Descriptor} {b r : Byte} (hcs : s.cs = .low) :
    exec .busStep (midTransfer s sent rx d ⟨.shifting b, false, r⟩) =
      .next (midTransfer s (sent ++ [b]) rx d ⟨.ready, true, answer s sent⟩) := by
  have hlow : (midTransfer s sent rx d ⟨.shifting b, false, r⟩).cs = .low := hcs
  rw [exec_busStep rfl, exchange_low hlow]
  simp only [midTransfer, List.append_assoc, List.length_append, List.length_singleton, Nat.add_assoc]
  rfl

/-- One round of a transfer: the exchange, then the handler's dispatch with the answer in `bus.rx`. -/
theorem rounds_succ_midTransfer {s u v : State} {sent rx : List Byte} {d : Descriptor} {b r : Byte} {k : Nat}
    (hcs : s.cs = .low) (hk : rounds k u = .next (midTransfer s sent rx d ⟨.shifting b, false, r⟩))
    (hv : handleByteComplete (midTransfer s (sent ++ [b]) rx d ⟨.ready, false, answer s sent⟩) = .ok v) :
    rounds (k + 1) u = .next v := by
  have henabled : handlerEnabled (midTransfer s (sent ++ [b]) rx d ⟨.ready, true, answer s sent⟩) := ⟨rfl, rfl, rfl⟩
  have hbyte := (exec_byteComplete_enabled henabled).trans (congrArg (finish _) hv)
  rw [rounds, hk]
  simp only [thenExec, exec_busStep_midTransfer hcs]
  exact hbyte

/-! ### The descriptor through a transfer -/

/-- The descriptor while byte `k` of the `nTx` bytes of TX is exchanged, with `nResp` response bytes to follow. -/
structure SendStage (nTx nResp k : Nat) (d : Descriptor) : Prop where
  mode : d.mode = .sendingCommandBytes ∨ (d.mode = .sendingDataBytes ∧ d.cmdRemaining = 0 ∧ nResp = 0)
  cursor : d.txCursor = k + 1
  remaining : k + 1 + d.txRemaining = nTx
  cmdWithinTx : d.cmdRemaining ≤ d.txRemaining
  /-- A read sends command bytes alone (R144). -/
  commandAlone : 0 < nResp → d.cmdRemaining = d.txRemaining
  rxCursor : d.rxCursor = 0
  rxRemaining : d.rxRemaining = nResp

/-- The descriptor while the response byte `RX[j]` of `nResp` is exchanged. -/
structure ReceiveStage (nResp j : Nat) (d : Descriptor) : Prop where
  mode : d.mode = .receivingDataBytes
  cursor : d.rxCursor = j
  remaining : j + d.rxRemaining = nResp

section
variable {nTx nResp k j : Nat} {d : Descriptor}

/-- R146's descriptor. -/
theorem SendStage.commandByte (h : SendStage nTx nResp k d) (hm : d.mode = .sendingCommandBytes)
    (hc : 0 < d.cmdRemaining) :
    SendStage nTx nResp (k + 1) { d with
      txCursor := d.txCursor + 1, txRemaining := d.txRemaining - 1, cmdRemaining := d.cmdRemaining - 1 } where
  mode := .inl hm
  cursor := by simp [h.cursor]
  remaining := by have := h.remaining; have := h.cmdWithinTx; dsimp only; omega
  cmdWithinTx := Nat.sub_le_sub_right h.cmdWithinTx 1
  commandAlone := fun hr => congrArg (· - 1) (h.commandAlone hr)
  rxCursor := h.rxCursor
  rxRemaining := h.rxRemaining

/-- R148's and R150's descriptor. -/
theorem SendStage.payloadByte (h : SendStage nTx nResp k d) (hc : d.cmdRemaining = 0) (hx : 0 < d.txRemaining) :
    SendStage nTx nResp (k + 1) { d with
      mode := .sendingDataBytes, txCursor := d.txCursor + 1, txRemaining := d.txRemaining - 1 } where
  mode := .inr ⟨rfl, hc, by have := h.commandAlone; omega⟩
  cursor := by simp [h.cursor]
  remaining := by have := h.remaining; dsimp only; omega
  cmdWithinTx := by simp [hc]
  commandAlone := fun hr => by have := h.commandAlone hr; omega
  rxCursor := h.rxCursor
  rxRemaining := h.rxRemaining

variable {s : State} {sent rx : List Byte} {b r : Byte}

/-- While bytes of TX remain, the handler shifts the next one (R146, R148, R150). -/
theorem handleByteComplete_sends (h : SendStage nTx nResp k d) (hk : k + 1 < nTx) (hb : s.tx[k + 1]? = some b) :
    ∃ d', SendStage nTx nResp (k + 1) d' ∧
      handleByteComplete (midTransfer s sent rx d ⟨.ready, false, r⟩) =
        .ok (midTransfer s sent rx d' ⟨.shifting b, false, r⟩) := by
  have hshift (d' : Descriptor) : shiftTx d' (midTransfer s sent rx d ⟨.ready, false, r⟩) =
      .ok (midTransfer s sent rx d' ⟨.shifting b, false, r⟩) :=
    shiftTx_ok_iff.2 ⟨b, h.cursor ▸ hb, rfl, rfl⟩
  have hrem := h.remaining
  have hx : 0 < d.txRemaining := by omega
  rcases h.mode with hm | ⟨hm, hc, -⟩
  · rcases Nat.eq_zero_or_pos d.cmdRemaining with hc | hc
    · have hresp : d.rxRemaining = 0 := by
        have hread := h.commandAlone
        have hrx := h.rxRemaining
        omega
      exact ⟨_, h.payloadByte hc hx, handleByteComplete_of_case (.firstPayload hm hc hresp hx (hshift _))⟩
    · exact ⟨_, h.commandByte hm hc, handleByteComplete_of_case (.commandByte hm hc (hshift _))⟩
  · exact ⟨_, h.payloadByte hc hx, handleByteComplete_of_case (.payloadByte hm hx (hshift _))⟩

/-- After the last byte of TX with no response to come, the handler ends the transfer (R149, R150). -/
theorem handleByteComplete_sent (h : SendStage nTx 0 k d) (hk : k + 1 = nTx) :
    handleByteComplete (midTransfer s sent rx d ⟨.ready, false, r⟩) =
      .ok (finishTransfer (midTransfer s sent rx d ⟨.ready, false, r⟩)) := by
  have hrem := h.remaining
  have hcmd := h.cmdWithinTx
  have hx : d.txRemaining = 0 := by omega
  have hc : d.cmdRemaining = 0 := by omega
  rcases h.mode with hm | ⟨hm, -, -⟩
  · exact handleByteComplete_of_case (.commandOnly hm hc h.rxRemaining hx rfl)
  · exact handleByteComplete_of_case (.payloadSent hm hx rfl)

/-- After the last command byte of a read, the handler shifts the first filler (R147). -/
theorem handleByteComplete_asks (h : SendStage nTx nResp k d) (hk : k + 1 = nTx) (hresp : 0 < nResp) :
    ∃ d', ReceiveStage nResp 0 d' ∧
      handleByteComplete (midTransfer s sent rx d ⟨.ready, false, r⟩) =
        .ok (midTransfer s sent rx d' ⟨.shifting s.cfg.filler, false, r⟩) := by
  have hrem := h.remaining
  have hcmd := h.cmdWithinTx
  have hc : d.cmdRemaining = 0 := by omega
  have hm : d.mode = .sendingCommandBytes := h.mode.resolve_right fun ⟨_, _, hzero⟩ => by omega
  refine ⟨{ d with mode := .receivingDataBytes }, ⟨rfl, h.rxCursor, by simp [h.rxRemaining]⟩, ?_⟩
  exact handleByteComplete_of_case (.response hm hc (h.rxRemaining ▸ hresp) (shift_ok_iff.2 ⟨rfl, rfl⟩))

/-- While response bytes remain, the handler stores the one received and shifts a filler (R151). -/
theorem handleByteComplete_stores (h : ReceiveStage nResp j d) (hj : j + 1 < nResp) (hlt : j < rx.length) :
    ∃ d', ReceiveStage nResp (j + 1) d' ∧
      handleByteComplete (midTransfer s sent rx d ⟨.ready, false, r⟩) =
        .ok (midTransfer s sent (rx.set j r) d' ⟨.shifting s.cfg.filler, false, r⟩) := by
  obtain ⟨hm, rfl, hrem⟩ := h
  have hx : 1 < d.rxRemaining := by omega
  refine ⟨{ d with rxCursor := d.rxCursor + 1, rxRemaining := d.rxRemaining - 1 },
    ⟨hm, rfl, by dsimp only; omega⟩, ?_⟩
  exact handleByteComplete_of_case (.responseByte hm (storeResponseByte_more rfl hlt hx))

/-- At the last response byte the handler stores it and ends the transfer (R151). -/
theorem handleByteComplete_received (h : ReceiveStage nResp j d) (hj : j + 1 = nResp) (hlt : j < rx.length) :
    ∃ d', handleByteComplete (midTransfer s sent rx d ⟨.ready, false, r⟩) =
      .ok (finishTransfer (midTransfer s sent (rx.set j r) d' ⟨.ready, false, r⟩)) := by
  obtain ⟨hm, rfl, hrem⟩ := h
  have hx : d.rxRemaining = 1 := by omega
  exact ⟨{ d with rxCursor := d.rxCursor + 1, rxRemaining := 0 },
    handleByteComplete_of_case (.responseByte hm (storeResponseByte_last hlt hx))⟩

end

/-! ### The response in RX -/

/-- What the device answers to the first `j` fillers, once it has received `sent`. -/
def responseBytes (s : State) (sent : List Byte) (j : Nat) : List Byte :=
  (List.range j).map fun i => answer s (sent ++ List.replicate i s.cfg.filler)

@[simp] theorem length_responseBytes (s : State) (sent : List Byte) (j : Nat) :
    (responseBytes s sent j).length = j := by
  simp [responseBytes]

/-- RX after `j` response bytes: they stand first, and the rest is as it was. -/
def rxAfter (s : State) (sent : List Byte) (j : Nat) : List Byte := responseBytes s sent j ++ s.rx.drop j

@[simp] theorem rxAfter_zero (s : State) (sent : List Byte) : rxAfter s sent 0 = s.rx := by
  simp [rxAfter, responseBytes]

@[simp] theorem length_rxAfter {s : State} (sent : List Byte) {j : Nat} (h : j ≤ s.rx.length) :
    (rxAfter s sent j).length = s.rx.length := by
  simpa [rxAfter] using Nat.add_sub_cancel' h

theorem set_rxAfter {s : State} {sent : List Byte} {j : Nat} (h : j < s.rx.length) :
    (rxAfter s sent j).set j (answer s (sent ++ List.replicate j s.cfg.filler)) = rxAfter s sent (j + 1) := by
  rw [rxAfter, List.set_append_right _ _ (by simp), length_responseBytes, Nat.sub_self, List.drop_eq_getElem_cons h,
    List.set_cons_zero]
  simp [rxAfter, responseBytes, List.range_succ]

theorem rxAfter_getElem?_of_lt {s : State} {sent : List Byte} {i j : Nat} (h : i < j) :
    (rxAfter s sent j)[i]? = some (answer s (sent ++ List.replicate i s.cfg.filler)) := by
  rw [rxAfter, List.getElem?_append_left (by simpa using h)]
  simp [responseBytes, h]

theorem rxAfter_getElem?_of_le {s : State} {sent : List Byte} {i j : Nat} (h : j ≤ i) :
    (rxAfter s sent j)[i]? = s.rx[i]? := by
  rw [rxAfter, List.getElem?_append_right (by simpa using h)]
  simp [Nat.add_sub_cancel' h]

/-! ### The rounds -/

/-- `u` is the state in which a transfer of `nTx` bytes of TX and `nResp` response bytes, called in `s` with the device
selected, starts: `TX[0]` is in the shifter. -/
structure TransferBegun (s : State) (nTx nResp : Nat) (u : State) : Prop where
  selected : s.cs = .low
  someByte : 0 < nTx
  txFits : nTx ≤ s.tx.length
  rxFits : nResp ≤ s.rx.length
  first : ∃ d b r, SendStage nTx nResp 0 d ∧ s.tx[0]? = some b ∧
    u = midTransfer s [] s.rx d ⟨.shifting b, false, r⟩

section
variable {s u : State} {nTx nResp : Nat}

/-- Exchange `k < nTx` is that of `TX[k]`, after `TX[0 .. k)`. -/
theorem rounds_sending (h : TransferBegun s nTx nResp u) {k : Nat} (hk : k < nTx) :
    ∃ d b r, SendStage nTx nResp k d ∧ s.tx[k]? = some b ∧
      rounds k u = .next (midTransfer s (s.tx.take k) s.rx d ⟨.shifting b, false, r⟩) := by
  induction k with
  | zero =>
    obtain ⟨d, b, r, hd, hb, hu⟩ := h.first
    exact ⟨d, b, r, hd, hb, by rw [hu]; rfl⟩
  | succ k ih =>
    obtain ⟨d, b, r, hd, hb, hrun⟩ := ih (by omega)
    have hnext : k + 1 < s.tx.length := by have := h.txFits; omega
    obtain ⟨d', hd', hv⟩ := handleByteComplete_sends hd hk (List.getElem?_eq_getElem hnext)
    refine ⟨d', s.tx[k + 1], answer s (s.tx.take k), hd', List.getElem?_eq_getElem hnext, ?_⟩
    rw [List.take_add_one, hb]
    exact rounds_succ_midTransfer h.selected hrun hv

/-- The round of the last byte of TX: its handler acts when the device has received `TX[0 .. nTx)`. -/
theorem rounds_lastSent (h : TransferBegun s nTx nResp u) :
    ∃ k d r, k + 1 = nTx ∧ SendStage nTx nResp k d ∧ ∀ v,
      handleByteComplete (midTransfer s (s.tx.take nTx) s.rx d ⟨.ready, false, r⟩) = .ok v →
      rounds nTx u = .next v := by
  obtain ⟨k, rfl⟩ := Nat.exists_eq_succ_of_ne_zero h.someByte.ne'
  obtain ⟨d, b, r, hd, hb, hrun⟩ := rounds_sending h (Nat.lt_succ_self k)
  refine ⟨k, d, answer s (s.tx.take k), rfl, hd, fun v hv => rounds_succ_midTransfer h.selected hrun ?_⟩
  rwa [Nat.succ_eq_add_one, List.take_add_one, hb] at hv

/-- Exchange `nTx + j` of a read is that of a filler, after `j` fillers whose answers RX holds. -/
theorem rounds_receiving (h : TransferBegun s nTx nResp u) {j : Nat} (hj : j < nResp) :
    ∃ d r, ReceiveStage nResp j d ∧
      rounds (nTx + j) u = .next (midTransfer s (s.tx.take nTx ++ List.replicate j s.cfg.filler)
        (rxAfter s (s.tx.take nTx) j) d ⟨.shifting s.cfg.filler, false, r⟩) := by
  induction j with
  | zero =>
    obtain ⟨k, d, r, hk, hd, hlast⟩ := rounds_lastSent h
    obtain ⟨d', hd', hv⟩ := handleByteComplete_asks hd hk hj
    refine ⟨d', r, hd', ?_⟩
    rw [rxAfter_zero, List.replicate_zero, List.append_nil]
    exact hlast _ hv
  | succ j ih =>
    obtain ⟨d, r, hd, hrun⟩ := ih (by omega)
    have hlt : j < s.rx.length := by have := h.rxFits; omega
    have hstore : j < (rxAfter s (s.tx.take nTx) j).length := by rwa [length_rxAfter _ hlt.le]
    obtain ⟨d', hd', hv⟩ := handleByteComplete_stores hd hj hstore
    refine ⟨d', answer s (s.tx.take nTx ++ List.replicate j s.cfg.filler), hd', ?_⟩
    rw [List.replicate_succ', ← List.append_assoc, ← set_rxAfter hlt]
    exact rounds_succ_midTransfer h.selected hrun hv

/-- Before its last interrupt a transfer keeps the foreground asleep (R154). -/
theorem rounds_asleep (h : TransferBegun s nTx nResp u) {k : Nat} (hk : k < nTx + nResp) :
    ∃ v, rounds k u = .next v ∧ v.fg = .asleep := by
  by_cases hsend : k < nTx
  · obtain ⟨d, b, r, -, -, hrun⟩ := rounds_sending h hsend
    exact ⟨_, hrun, rfl⟩
  · obtain ⟨j, rfl⟩ := Nat.exists_eq_add_of_le (Nat.le_of_not_lt hsend)
    obtain ⟨d, r, -, hrun⟩ := rounds_receiving h (j := j) (by omega)
    exact ⟨_, hrun, rfl⟩

/-- The whole transfer (R154 to R157): after `nTx + nResp` rounds it has ended, the device has received
`TX[0 .. nTx)` and the fillers, and RX holds the answers to these. -/
theorem rounds_transfer (h : TransferBegun s nTx nResp u) :
    ∃ d r, rounds (nTx + nResp) u = .next (finishTransfer (midTransfer s
      (s.tx.take nTx ++ List.replicate nResp s.cfg.filler) (rxAfter s (s.tx.take nTx) nResp) d
      ⟨.ready, false, r⟩)) := by
  cases nResp with
  | zero =>
    obtain ⟨k, d, r, hk, hd, hlast⟩ := rounds_lastSent h
    refine ⟨d, r, ?_⟩
    rw [rxAfter_zero, List.replicate_zero, List.append_nil]
    exact hlast _ (handleByteComplete_sent hd hk)
  | succ j =>
    obtain ⟨d, r, hd, hrun⟩ := rounds_receiving h (Nat.lt_succ_self j)
    have hlt : j < s.rx.length := h.rxFits
    have hstore : j < (rxAfter s (s.tx.take nTx) j).length := by rwa [length_rxAfter _ hlt.le]
    obtain ⟨d', hv⟩ := handleByteComplete_received hd rfl hstore
    refine ⟨d', answer s (s.tx.take nTx ++ List.replicate j s.cfg.filler), ?_⟩
    rw [List.replicate_succ', ← List.append_assoc, ← set_rxAfter hlt]
    exact rounds_succ_midTransfer h.selected hrun hv

/-! ### The two calls -/

/-- A call that starts from a state that meets the invariant begins a transfer. -/
theorem transferBegun_of_teCall {nCmd cmd tx rx : Nat} {fits : Prop} [Decidable fits] (h : Inv s)
    (hm : s.desc.mode = .idle) (hcs : s.cs = .low) (hn : 1 ≤ nCmd) (hf : fits) (htx : 1 + tx ≤ s.cfg.bufCap)
    (hrx : rx ≤ s.cfg.bufCap) (hcmd : cmd ≤ tx) (hread : 0 < rx → cmd = tx)
    (hu : finish s (teCall nCmd fits cmd tx rx s) = .next u) : TransferBegun s (1 + tx) rx u := by
  obtain ⟨-, hr, hi⟩ := h.transfer.atRest hm
  have hlt : 0 < s.tx.length := by rw [h.txLength]; omega
  rw [teCall_starts hm hn hf (List.getElem?_eq_getElem hlt) hr] at hu
  cases hu
  refine ⟨hcs, by omega, by rwa [h.txLength], by rwa [h.rxLength],
    ⟨.sendingCommandBytes, s.tx[0], 1, tx, 0, rx, cmd⟩, s.tx[0], s.bus.rx, ?_, List.getElem?_eq_getElem hlt, ?_⟩
  · exact ⟨.inl rfl, rfl, rfl, hcmd, hread, rfl, rfl⟩
  · simp [midTransfer, hi]

end

/-- Settles O57: a write is a transfer without response bytes. -/
theorem writeTransferDeliversTheFrame : Obligations.WriteTransferDeliversTheFrame := by
  intro s u nCmd nData h hfaults hm hcs hn hcap hu
  have hbegun := transferBegun_of_teCall h hm hcs hn hcap (by omega) (Nat.zero_le _) (by omega) nofun hu
  rw [show 1 + (nCmd - 1 + nData) = nCmd + nData by omega] at hbegun
  obtain ⟨d, r, hrun⟩ := rounds_transfer hbegun
  exact ⟨fun k hk => rounds_asleep hbegun hk, _, hrun, by simp [hfaults, hcs]⟩

/-- Settles O58: a read is a transfer of the command bytes alone, and RX holds the answers to the fillers. -/
theorem readTransferCapturesTheResponse : Obligations.ReadTransferCapturesTheResponse := by
  intro s u nCmd nResp h hfaults hm hcs hn hcmd hresp hu
  have hbegun := transferBegun_of_teCall h hm hcs hn ⟨hcmd, hresp⟩ (by omega) hresp le_rfl (fun _ => rfl) hu
  rw [show 1 + (nCmd - 1) = nCmd by omega] at hbegun
  obtain ⟨d, r, hrun⟩ := rounds_transfer hbegun
  refine ⟨fun k hk => rounds_asleep hbegun hk, _, hrun, rfl, rfl, hfaults, by simp, fun j hj => ?_,
    fun j hj => rxAfter_getElem?_of_le hj, rfl, hcs, rfl, rfl⟩
  have hlen : (s.tx.take nCmd).length = nCmd := by simpa [h.txLength] using hcmd
  refine (rxAfter_getElem?_of_lt hj).trans ?_
  simp [answer, hlen, Nat.add_assoc]

end Sys2Proof.Machine
end

section
/-! SUPPORT. The transfer mode (40 R153): what each kind of instruction can do to it. -/

namespace Sys2Proof.Machine

/-- The edge of a call (R153). -/
def CallEdge (m m' : Mode) : Prop := m = .idle ∧ m' = .sendingCommandBytes

/-- The edges of the handler (R153). -/
def HandlerEdge (m m' : Mode) : Prop :=
  (m = .sendingCommandBytes ∧ m' = .receivingDataBytes) ∨ (m = .sendingCommandBytes ∧ m' = .sendingDataBytes) ∨
    (m ≠ .idle ∧ m' = .idle)

theorem startTransfer_mode {c x r : Nat} {s t : State} (h : startTransfer c x r s = .ok t) :
    t.desc.mode = .sendingCommandBytes := by
  obtain ⟨b, -, -, rfl⟩ := startTransfer_ok_iff.1 h
  rfl

theorem teWriteCall_mode {a b : Nat} {s t : State} (h : teWriteCall a b s = .ok t) :
    CallEdge s.desc.mode t.desc.mode := by
  obtain ⟨hm, -, -, h⟩ := teWriteCall_ok_iff.1 h
  exact ⟨hm, startTransfer_mode h⟩

theorem teReadCall_mode {a b : Nat} {s t : State} (h : teReadCall a b s = .ok t) :
    CallEdge s.desc.mode t.desc.mode := by
  obtain ⟨hm, -, -, h⟩ := teReadCall_ok_iff.1 h
  exact ⟨hm, startTransfer_mode h⟩

/-- R151 keeps the mode while another response byte is due, and else goes to Idle. -/
theorem storeResponseByte_mode {s t : State} (h : storeResponseByte s = .ok t) :
    t.desc.mode = s.desc.mode ∨ t.desc.mode = .idle := by
  obtain ⟨-, h⟩ := storeResponseByte_ok_iff.1 h
  dsimp only at h
  split at h
  · obtain ⟨-, rfl⟩ := shift_ok_iff.1 h
    exact .inl rfl
  · subst h
    exact .inr rfl

theorem handleByteComplete_mode {s t : State} (h : handleByteComplete s = .ok t) :
    t.desc.mode = s.desc.mode ∨ HandlerEdge s.desc.mode t.desc.mode := by
  cases handleByteComplete_cases h with
  | commandByte _ _ h =>
    obtain ⟨b, -, -, rfl⟩ := shiftTx_ok_iff.1 h
    exact .inl rfl
  | response hm _ _ h =>
    obtain ⟨-, rfl⟩ := shift_ok_iff.1 h
    exact .inr (.inl ⟨hm, rfl⟩)
  | firstPayload hm _ _ _ h =>
    obtain ⟨b, -, -, rfl⟩ := shiftTx_ok_iff.1 h
    exact .inr (.inr (.inl ⟨hm, rfl⟩))
  | payloadByte hm _ h =>
    obtain ⟨b, -, -, rfl⟩ := shiftTx_ok_iff.1 h
    exact .inl hm.symm
  | commandOnly hm _ _ _ h | payloadSent hm _ h =>
    subst h
    exact .inr (.inr (.inr ⟨by simp [hm], rfl⟩))
  | responseByte hm h => exact (storeResponseByte_mode h).imp_right fun ht => .inr (.inr ⟨by simp [hm], ht⟩)

theorem TransferStep.mode {s t : State} (h : TransferStep s t) :
    t.desc.mode = s.desc.mode ∨ CallEdge s.desc.mode t.desc.mode := by
  cases h with
  | rest | fill => exact .inl rfl
  | select => exact .inl (by rw [selectDevice_desc])
  | write h => exact .inr (teWriteCall_mode h)
  | read h => exact .inr (teReadCall_mode h)
  | deselect h => exact .inl (by rw [deselectDevice_eq h])

/-- The instructions that call the Transfer Engine. -/
def CallsEngine (i : Instr) : Prop :=
  (∃ a b, i = .teWrite a b) ∨ (∃ a b, i = .teRead a b) ∨ (∃ f n, i = .issueWrite f n) ∨ ∃ f n, i = .issueRead f n

theorem OpEffect.mode {i : Instr} {n : Nat} {s t : State} (h : OpEffect i n s t) :
    t.desc.mode = s.desc.mode ∨ (CallEdge s.desc.mode t.desc.mode ∧ CallsEngine i) := by
  cases h with
  | control | identified => exact .inl rfl
  | issueWrite hi h => exact h.mode.imp_right fun hm => ⟨hm, .inr (.inr (.inl ⟨_, _, hi⟩))⟩
  | issueRead hi h => exact h.mode.imp_right fun hm => ⟨hm, .inr (.inr (.inr ⟨_, _, hi⟩))⟩
  | deselect _ _ h => exact .inl (by rw [deselectDevice_eq h])

theorem hardwareStep_mode {i : Instr} {s t : State} (h : hardwareStep i s = .ok t) :
    t.desc.mode = s.desc.mode ∨ (CallEdge s.desc.mode t.desc.mode ∧ CallsEngine i) ∨
      (i = .byteComplete ∧ HandlerEdge s.desc.mode t.desc.mode) := by
  cases i
  case teWrite => exact .inr (.inl ⟨teWriteCall_mode h, .inl ⟨_, _, rfl⟩⟩)
  case teRead => exact .inr (.inl ⟨teReadCall_mode h, .inr (.inl ⟨_, _, rfl⟩)⟩)
  case byteComplete =>
    obtain ⟨-, h⟩ := byteCompleteStep_ok_iff.1 h
    exact (handleByteComplete_mode h).imp_right fun hm => .inr ⟨rfl, hm⟩
  case busStep =>
    obtain ⟨b, -, rfl⟩ := busExchangeStep_ok_iff.1 h
    exact .inl (by rw [exchange_state])
  case deviceExchange =>
    cases h
    exact .inl (by rw [exchange_state])
  case commit => exact .inl (by rw [(commitFrame_ok h).1])
  case deviceComplete =>
    obtain ⟨-, h⟩ := check_bind_ok_iff.1 h
    cases h
    exact .inl rfl
  all_goals
    simp only [hardwareStep] at h
    exact .inl (by rw [(frameEffect_ok h).1])

theorem ControlOnly.desc {s t : State} (h : ControlOnly s t) : t.desc = s.desc := by rw [h]

/-- Settles O14: a recorded fault keeps the mode, an operation's step changes it by a call alone, and the other bodies
by a call or the handler. -/
theorem modeChangesOnlyAlongItsEdges : Obligations.ModeChangesOnlyAlongItsEdges := by
  intro i s t h
  rcases exec_next h with ⟨f, rfl⟩ | ⟨n, u, -, hu, ht⟩ | ⟨-, ht⟩
  · exact .inl (by rw [recordFault_desc])
  · obtain ⟨v, hv, hc⟩ := opStep_ok ht
    have hmode := hv.mode
    rw [← hc.desc, (controlOnly_atStep hu).desc] at hmode
    exact hmode.imp_right fun ⟨⟨hm, ht⟩, hi⟩ => .inl ⟨hm, ht, hi⟩
  · exact (hardwareStep_mode ht).imp_right (.imp_left fun ⟨⟨hm, ht⟩, hi⟩ => ⟨hm, ht, hi⟩)

end Sys2Proof.Machine
end

section
/-! SUPPORT. One step of a Flash Command Layer operation (41 R170): what executing it answers, by the kind of its body.
Most steps run through, raise a fault, or call another operation (R176). -/

namespace Sys2Proof.Machine

/-! ### The foreground -/

theorem atStep_asleep {i : Instr} {s : State} (hf : s.fg = .asleep) : atStep i s = .error (.refuse .notEnabled) := by
  simp [atStep, hf]

theorem atStep_other {i : Instr} {pc : Pc} {s : State} (hr : s.fg = .running) (hp : s.fcl.pc = some pc)
    (hne : pc.op ≠ i) : atStep i s = .error (.refuse .operationRunning) := by
  simp [atStep, hr, hp, hne]

/-- Settles O8: the check of where the operation acts comes before its step. -/
theorem operationsNeedTheForeground : Obligations.OperationsNeedTheForeground := by
  intro s i hi
  rw [exec_of_isFclOp hi]
  refine ⟨fun hf => ?_, fun pc hr hp hne => ?_⟩
  · rw [runOp, atStep_asleep hf, bind_error, finish_refuse]
  · rw [runOp, atStep_other hr hp hne, bind_error, finish_refuse]

/-! ### Steps by their bodies -/

section
variable {i j : Instr} {n m : Nat} {s t : State} {r : Result} {v : Value} {k : Value → State → Act State}

theorem AtOp.running (h : AtOp i n s) : s.fg = .running := h.1
theorem AtOp.pc (h : AtOp i n s) : s.fcl.pc = some ⟨i, n⟩ := h.2.1
theorem AtOp.ret (h : AtOp i n s) : s.fcl.locals.ret = none := h.2.2
theorem Returned.ret (h : Returned i n r s) : s.fcl.locals.ret = some r := h.2.2

theorem exec_atOp (h : AtOp i n s) (hi : i.isFclOp = true) : exec i s = finish s (opStep i n s) := by
  obtain ⟨hr, hp, -⟩ := h
  rw [exec_of_isFclOp hi, runOp_current hr hp]

theorem exec_returned (h : Returned i n r s) (hi : i.isFclOp = true) : exec i s = finish s (opStep i n s) := by
  obtain ⟨hr, hp, -⟩ := h
  rw [exec_of_isFclOp hi, runOp_current hr hp]

theorem exec_atOp_of_ok (h : AtOp i n s) (ht : opStep i n s = .ok t) (hi : i.isFclOp = true := by rfl) :
    exec i s = .next t := by
  rw [exec_atOp h hi, ht, finish_ok]

theorem exec_atOp_of_raise {f : FaultName} (h : AtOp i n s) (hf : opStep i n s = .error (.raise f))
    (hi : i.isFclOp = true := by rfl) : exec i s = .next (recordFault f s) := by
  rw [exec_atOp h hi, hf, finish_raise]

theorem exec_atOp_of_refuse {q : Refusal} (h : AtOp i n s) (hq : opStep i n s = .error (.refuse q))
    (hi : i.isFclOp = true := by rfl) : exec i s = .refused q := by
  rw [exec_atOp h hi, hq, finish_refuse]

/-- A calling step, before its call, calls. -/
theorem exec_atOp_of_call (h : AtOp i n s) (hc : opStep i n s = callThen j k s) (hi : i.isFclOp = true := by rfl) :
    exec i s = .next (callOp j s) := by
  rw [exec_atOp h hi, hc, callThen_call h.ret, finish_ok]

/-- A calling step to which an error is returned returns it at once (R176, 60 R266). -/
theorem exec_returned_err {e : ErrorKind} (h : Returned i n (.err e) s) (hc : opStep i n s = callThen j k s)
    (hi : i.isFclOp = true := by rfl) : exec i s = .next (returnOp (.err e) s) := by
  rw [exec_returned h hi, hc, callThen_err h.ret, finish_ok]

/-- A calling step to which a value is returned goes on with it. -/
theorem exec_returned_ok (h : Returned i n (.ok v) s) (hc : opStep i n s = callThen j k s)
    (hk : k v (setLocals { s.fcl.locals with ret := none } s) = .ok t := by rfl) (hi : i.isFclOp = true := by rfl) :
    exec i s = .next t := by
  rw [exec_returned h hi, hc, callThen_ok h.ret, hk, finish_ok]

theorem exec_returned_of_ok (h : Returned i n r s) (ht : opStep i n s = .ok t) (hi : i.isFclOp = true := by rfl) :
    exec i s = .next t := by
  rw [exec_returned h hi, ht, finish_ok]

/-! ### Calls that depend on a policy (R182, R192) -/

theorem callIf_of {p : Prop} [Decidable p] (hp : p) :
    callIf p j m s = callThen j (fun _ t => .ok (goto m t)) s := if_pos hp

theorem callIf_of_not {p : Prop} [Decidable p] (hp : ¬p) : callIf p j m s = .ok (goto m s) := if_neg hp

/-- When a value is returned to it, the step goes on to the next whether or not it still would call. -/
theorem exec_returned_callIf {p : Prop} [Decidable p] (h : Returned i n (.ok v) s)
    (hc : opStep i n s = callIf p j m s) (hi : i.isFclOp = true := by rfl) : exec i s = .next (goto m s) := by
  by_cases hp : p
  · exact exec_returned_ok h (hc.trans (callIf_of hp)) rfl hi
  · rw [exec_returned h hi, hc, callIf_of_not hp, finish_ok]

end

end Sys2Proof.Machine
end

section
/-! SUPPORT. The operations of the Flash Command Layer step by step (41 R175 to R192): each clause is the rule for the
kind of its step, and what is left to say is where the body branches. -/

namespace Sys2Proof.Machine

/-! ### The calling steps -/

section
variable (s : State)

theorem opStep_waitReady_two :
    opStep .waitReady 2 s = callThen (.issueRead [s.cfg.opcStatus] 1) countPoll s := rfl

theorem opStep_identify_one :
    opStep .identify 1 s = callThen (.issueRead [s.cfg.opcIdentify] s.cfg.idReadLen) keepId s := rfl

theorem opStep_deviceOp_three (body : TransferBody) (mb : Bool) : opStep (.deviceOp body mb) 3 s =
    callThen body.instr (fun v t => .ok (goto 4 (setLocals { t.fcl.locals with value := v } t))) s := rfl

theorem opStep_erasePage_two (p : Nat) : opStep (.erasePage p) 2 s =
    callThen (.deviceOp (.write (eraseFrame s.cfg s.fcl.locals.off) 4) true) (fun _ t => .ok (goto 3 t)) s := rfl

theorem opStep_eraseChip_two : opStep .eraseChip 2 s =
    callThen (.deviceOp (.write s.cfg.seqChipErase.bytes 4) true) (fun _ t => .ok (goto 3 t)) s := rfl

theorem opStep_programPage_two (p : Nat) (buffer : List Byte) : opStep (.programPage p buffer) 2 s =
    callThen (.deviceOp (.write (programFrame s.cfg s.fcl.locals.off buffer) 4) true)
      (fun _ t => .ok (goto 3 t)) s := rfl

theorem opStep_eraseBlocks_three (start count : Nat) : opStep (.eraseBlocks start count) 3 s =
    callThen (.erasePage (start + s.fcl.locals.index)) nextUnit s := rfl

theorem opStep_programBlocks_three (start count : Nat) (buffer : List Byte) :
    opStep (.programBlocks start count buffer) 3 s =
      callThen (.programPage (start + s.fcl.locals.index)
        (pageSlice buffer s.fcl.locals.index s.fcl.locals.pageSize)) nextUnit s := rfl

theorem opStep_readBytes_two (off len : Nat) : opStep (.readBytes off len) 2 s =
    callThen (.deviceOp (.read (readFrame s.cfg off) len) false)
      (fun v t => .ok (goto 3 (setLocals { t.fcl.locals with value := v } t))) s := rfl

theorem opStep_powerDown_one : opStep .powerDown 1 s =
    callThen (.issueWrite [s.cfg.opcPowerDown] 1) (fun _ t => .ok (goto 2 t)) s := rfl

theorem opStep_resume_one : opStep .resume 1 s =
    callThen (.issueWrite [s.cfg.opcResume] 1) (fun _ t => .ok (goto 2 t)) s := rfl

theorem opStep_reprogramPageSize_one : opStep .reprogramPageSize 1 s =
    callThen (.issueWrite s.cfg.seqPow2.bytes 4) (fun _ t => .ok (goto 2 t)) s := rfl

theorem opStep_init_two : opStep .init 2 s = callThen .resume (fun _ t => .ok (goto 3 t)) s := rfl

/-- R192 step 3, but for the one error it answers with an emit of its own. -/
theorem opStep_init_three {s : State} (h : s.fcl.locals.ret ≠ some (.err .unrecognizedDevice)) :
    opStep .init 3 s = callThen .identify (fun _ t => .ok (goto 4 t)) s := by
  simp [opStep, initStep, initIdentify]

theorem opStep_init_four : opStep .init 4 s = callThen .waitReady keepStatus s := rfl

/-- R192 step 5 on a device in the legacy layout. -/
theorem opStep_init_five {s : State} (h : isPow2 s.cfg s.fcl.locals.status = false) : opStep .init 5 s =
    callThen .reprogramPageSize
      (fun _ t => .ok (returnOp (.err .legacyPageFormat) (emit .legacyPageFormat t))) s :=
  if_neg (by simp [h])

end

/-! ### wait_ready (R175, R176) -/

theorem boundReached_of_le {s : State} {n : Nat} (hb : s.cfg.waitReadyBound = some n) (hn : n ≤ s.fcl.locals.polls) :
    boundReached s = true := by
  simp [boundReached, hb, hn]

theorem boundReached_of_lt {s : State} (h : ∀ n, s.cfg.waitReadyBound = some n → s.fcl.locals.polls < n) :
    boundReached s = false := by
  cases hb : s.cfg.waitReadyBound with
  | none => simp [boundReached, hb]
  | some n => simpa [boundReached, hb] using h n hb

/-- Settles O45: the steps branch on the status bit and on the bound alone. -/
theorem waitReadySteps : Obligations.WaitReadySteps := by
  intro s
  refine ⟨fun h => exec_atOp_of_ok h rfl, fun h => exec_atOp_of_call h (opStep_waitReady_two s),
    fun b l h => exec_returned_ok h (opStep_waitReady_two s),
    fun h => ⟨fun hr => exec_atOp_of_ok h (if_pos hr), fun hr => exec_atOp_of_ok h (if_neg ?_)⟩,
    fun h => ⟨fun n hb hn => exec_atOp_of_ok h (if_pos (boundReached_of_le hb hn)),
      fun hb => exec_atOp_of_ok h (if_neg ?_)⟩,
    fun h => exec_atOp_of_ok h rfl⟩
  · simp [hr]
  · simp [boundReached_of_lt hb]

/-! ### identify and decode_id (R177, R178) -/

/-- Settles O46: the third step branches on what decode_id finds, and the fourth takes the preset the third kept. -/
theorem identifySteps : Obligations.IdentifySteps := by
  intro s
  refine ⟨fun h => exec_atOp_of_call h (opStep_identify_one s), fun id h => exec_returned_ok h (opStep_identify_one s),
    fun h => exec_atOp_of_ok h rfl,
    fun h => ⟨fun hd => exec_atOp_of_ok h ?_, fun k hd => exec_atOp_of_ok h ?_⟩,
    fun h k hk => exec_atOp_of_ok h ?_⟩
  · simp [opStep, identifyStep, hd]
  · simp [opStep, identifyStep, hd]
  · simp [opStep, identifyStep, hk]

/-- A preset whose capacity code no other has is the one found under it. -/
theorem presetOf_eq_some {c : Config} {k : Fin 7} (hk : ∀ j : Fin 7, c.capCode[j] = c.capCode[k] → j = k) :
    presetOf c c.capCode[k] = some k := by
  cases h : presetOf c c.capCode[k] with
  | none =>
    have hnone := List.find?_eq_none.1 h k (List.mem_finRange k)
    simp at hnone
  | some j =>
    have hj := List.find?_some h
    rw [hk j (by simpa using hj)]

theorem presetOf_eq_none {c : Config} {cap : Nat} (h : ∀ k : Fin 7, c.capCode[k] ≠ cap) : presetOf c cap = none :=
  List.find?_eq_none.2 fun k _ => by simpa using h k

/-- R178's three comparisons, of which the last is the search for the capacity code. -/
theorem decodeIdBytes_cons_cons (c : Config) (m b : Byte) (rest : List Byte) :
    decodeIdBytes c (m :: b :: rest) =
      if m = c.mfrId ∧ b.toNat % 2 ^ c.familyWidth = c.familyValue then presetOf c (b.toNat / 2 ^ c.familyWidth)
      else none := by
  by_cases hm : m = c.mfrId <;> by_cases hf : b.toNat % 2 ^ c.familyWidth = c.familyValue <;>
    simp [decodeIdBytes, hm, hf]

/-- Settles O47: where manufacturer and family match, the search for the capacity code decides. -/
theorem decodeIdFindsThePreset : Obligations.DecodeIdFindsThePreset := by
  intro s m b x h
  have hexec (q : Option (Fin 7)) (hq : decodeIdBytes s.cfg [m, b, x] = q) :
      exec (.decodeId [m, b, x]) s = .next (returnOp (.ok (.preset q)) s) :=
    exec_atOp_of_ok h (by rw [← hq]; rfl)
  refine ⟨fun k hk hm hf hc => hexec _ ?_, fun hne => hexec _ ?_⟩
  · rw [decodeIdBytes_cons_cons, if_pos ⟨hm, hf⟩, hc, presetOf_eq_some hk]
  · rw [decodeIdBytes_cons_cons]
    split
    case isTrue hmatch =>
      obtain ⟨hm, hf⟩ := hmatch
      exact presetOf_eq_none ((hne.resolve_left (not_not.2 hm)).resolve_left (not_not.2 hf))
    case isFalse => rfl

/-! ### Page offsets (R181, R183 to R185) -/

section
variable {s : State} {p : Nat} {g : Geometry}

theorem pageOffsetOf_unset (hg : s.fcl.geometry = none) : pageOffsetOf p s = .error (.raise .geometryUnset) := by
  simp [pageOffsetOf, hg]

theorem pageOffsetOf_outside (hg : s.fcl.geometry = some g) (hp : g.pageCount ≤ p) :
    pageOffsetOf p s = .error (.raise .pageOutOfRange) := by
  simp [pageOffsetOf, hg, hp]

theorem pageOffsetOf_inside (hg : s.fcl.geometry = some g) (hp : p < g.pageCount) :
    pageOffsetOf p s = .ok (p * 2 ^ g.pageShift) :=
  pageOffsetOf_ok_iff.2 ⟨g, hg, hp, (Nat.shiftLeft_eq ..).symm⟩

theorem keepOffset_fits {off : Nat} (h : off < 2 ^ 24) : keepOffset p off s =
    .ok (goto 2 (emit (.pageOffset p off) (setLocals { s.fcl.locals with off := off } s))) := by
  rw [keepOffset, encodableOffset, require_of h]
  rfl

theorem keepOffset_too_wide {off : Nat} (h : 2 ^ 24 ≤ off) :
    keepOffset p off s = .error (.refuse .offsetNotEncodable) := by
  rw [keepOffset, encodableOffset, require_of_not (Nat.not_lt.2 h)]
  rfl

theorem requirePageBuffer_whole {buffer : List Byte} (hg : s.fcl.geometry = some g)
    (hb : buffer.length = 2 ^ g.pageShift) : requirePageBuffer buffer s = .ok () := by
  simp only [requirePageBuffer, hg]
  exact require_of hb

theorem requirePageBuffer_bad {buffer : List Byte} (hg : s.fcl.geometry = some g)
    (hb : buffer.length ≠ 2 ^ g.pageShift) : requirePageBuffer buffer s = .error (.raise .badBufferLength) := by
  simp only [requirePageBuffer, hg]
  exact require_of_not hb

end

theorem opStep_pageOffset_one (p : Nat) (s : State) : opStep (.pageOffset p) 1 s =
    pageOffsetOf p s >>= fun off => pure (returnOp (.ok (.offset off)) s) := rfl

theorem opStep_erasePage_one (p : Nat) (s : State) :
    opStep (.erasePage p) 1 s = pageOffsetOf p s >>= fun off => keepOffset p off s := rfl

theorem opStep_programPage_one (p : Nat) (buffer : List Byte) (s : State) : opStep (.programPage p buffer) 1 s =
    pageOffsetOf p s >>= fun off => requirePageBuffer buffer s >>= fun _ => keepOffset p off s := rfl

/-- Settles O48: the one step is the computation of the offset. -/
theorem pageOffsetShiftsTheIndex : Obligations.PageOffsetShiftsTheIndex := by
  intro s p h
  refine ⟨fun hg => exec_atOp_of_raise h ?_, fun g hg =>
    ⟨fun hp => exec_atOp_of_raise h ?_, fun hp => exec_atOp_of_ok h ?_⟩⟩ <;> rw [opStep_pageOffset_one]
  · rw [pageOffsetOf_unset hg, bind_error]
  · rw [pageOffsetOf_outside hg hp, bind_error]
  · rw [pageOffsetOf_inside hg hp]
    rfl

/-- Settles O50: the first step is page_offset, then the check of the offset's width. -/
theorem eraseOperationSteps : Obligations.EraseOperationSteps := by
  intro s p
  refine ⟨fun h => ⟨fun hg => exec_atOp_of_raise h ?_, fun g hg => ⟨fun hp => exec_atOp_of_raise h ?_,
      fun hp hw => exec_atOp_of_ok h ?_, fun hp hw => exec_atOp_of_refuse h ?_⟩⟩,
    fun h => exec_atOp_of_call h (opStep_erasePage_two s p), fun v h => exec_returned_ok h (opStep_erasePage_two s p),
    fun h => exec_atOp_of_ok h rfl,
    fun h => exec_atOp_of_ok h rfl, fun h => exec_atOp_of_call h (opStep_eraseChip_two s),
    fun v h => exec_returned_ok h (opStep_eraseChip_two s),
    fun h => exec_atOp_of_ok h rfl⟩ <;> rw [opStep_erasePage_one]
  · rw [pageOffsetOf_unset hg, bind_error]
  · rw [pageOffsetOf_outside hg hp, bind_error]
  · rw [pageOffsetOf_inside hg hp, bind_ok, keepOffset_fits hw]
    rfl
  · rw [pageOffsetOf_inside hg hp, bind_ok, keepOffset_too_wide hw]

/-- Settles O51: as for erase_page, with the buffer's length checked between the two. -/
theorem programPageSteps : Obligations.ProgramPageSteps := by
  intro s p buffer
  refine ⟨fun h => ⟨fun hg => exec_atOp_of_raise h ?_, fun g hg => ⟨fun hp => exec_atOp_of_raise h ?_,
      fun hp hb => exec_atOp_of_raise h ?_, fun hp hb hw => exec_atOp_of_ok h ?_,
      fun hp hb hw => exec_atOp_of_refuse h ?_⟩⟩,
    fun h => exec_atOp_of_call h (opStep_programPage_two s p buffer),
    fun v h => exec_returned_ok h (opStep_programPage_two s p buffer), fun h => exec_atOp_of_ok h rfl⟩ <;>
    rw [opStep_programPage_one]
  · rw [pageOffsetOf_unset hg, bind_error]
  · rw [pageOffsetOf_outside hg hp, bind_error]
  · rw [pageOffsetOf_inside hg hp, bind_ok, requirePageBuffer_bad hg hb, bind_error]
  · rw [pageOffsetOf_inside hg hp, bind_ok, requirePageBuffer_whole hg hb, bind_ok, keepOffset_fits hw]
    rfl
  · rw [pageOffsetOf_inside hg hp, bind_ok, requirePageBuffer_whole hg hb, bind_ok, keepOffset_too_wide hw]

/-! ### DEVICE_OP (R182) -/

section
variable {s : State} {mb : Bool}

theorem bracketClose_alwaysOn (hp : s.cfg.powerPolicy = .alwaysOn) : bracketClose mb s = .ok (goto 6 s) := by
  simp [bracketClose, hp]

theorem bracketClose_wait (hp : s.cfg.powerPolicy = .sleepBetweenOperations) (hr : s.fcl.locals.ret = none)
    (hb : s.cfg.busyPolicy = .preOperation ∧ mb = true) :
    bracketClose mb s = .ok (callOp .waitReady (setLocals { s.fcl.locals with phase := 1 } s)) := by
  simp only [bracketClose, hp, hr, if_pos hb, if_true]

theorem bracketClose_powerDown (hp : s.cfg.powerPolicy = .sleepBetweenOperations) (hr : s.fcl.locals.ret = none)
    (hb : ¬(s.cfg.busyPolicy = .preOperation ∧ mb = true)) : bracketClose mb s = .ok (bracketPowerDown s) := by
  simp only [bracketClose, hp, hr, if_neg hb, if_true]

theorem bracketClose_err {e : ErrorKind} (hp : s.cfg.powerPolicy = .sleepBetweenOperations)
    (hr : s.fcl.locals.ret = some (.err e)) : bracketClose mb s = .ok (returnOp (.err e) s) := by
  simp [bracketClose, hp, hr]

theorem bracketClose_waited {v : Value} (hp : s.cfg.powerPolicy = .sleepBetweenOperations)
    (hr : s.fcl.locals.ret = some (.ok v)) (hph : s.fcl.locals.phase = 1) :
    bracketClose mb s = .ok (bracketPowerDown (setLocals { s.fcl.locals with ret := none } s)) := by
  simp [bracketClose, hp, hr, hph]

theorem bracketClose_done {v : Value} (hp : s.cfg.powerPolicy = .sleepBetweenOperations)
    (hr : s.fcl.locals.ret = some (.ok v)) (hph : s.fcl.locals.phase ≠ 1) :
    bracketClose mb s = .ok (goto 6 s) := by
  simp [bracketClose, hp, hr, hph]

end

/-- Settles O49: each step calls where its policy says so, and step 5 by its phase. -/
theorem deviceOpBracket : Obligations.DeviceOpBracket := by
  intro s body mb
  refine ⟨fun h => ⟨fun hp => exec_atOp_of_call h (callIf_of hp), fun hp => exec_atOp_of_ok h (callIf_of_not ?_)⟩,
    fun v h => exec_returned_callIf h rfl,
    fun h => ⟨fun hb => exec_atOp_of_call h (callIf_of hb), fun hb => exec_atOp_of_ok h (callIf_of_not ?_)⟩,
    fun v h => exec_returned_callIf h rfl,
    fun h => exec_atOp_of_call h (opStep_deviceOp_three s body mb),
    fun v h => exec_returned_ok h (opStep_deviceOp_three s body mb),
    fun h => ⟨fun hb hm => exec_atOp_of_call h (callIf_of ⟨hb, hm⟩),
      fun hb => exec_atOp_of_ok h (callIf_of_not ?_)⟩,
    fun v h => exec_returned_callIf h rfl,
    fun h => ⟨fun hp => exec_atOp_of_ok h (bracketClose_alwaysOn hp),
      fun hp hb hm => exec_atOp_of_ok h (bracketClose_wait hp h.ret ⟨hb, hm⟩),
      fun hp hb => exec_atOp_of_ok h (bracketClose_powerDown hp h.ret ?_)⟩,
    fun v h hp => ⟨fun hph => exec_returned_of_ok h (bracketClose_waited hp h.ret hph),
      fun hph => exec_returned_of_ok h (bracketClose_done hp h.ret ?_)⟩,
    fun h => exec_atOp_of_ok h rfl⟩
  · simp [hp]
  · simp [hb]
  · rcases hb with hb | hb <;> simp [hb]
  · rcases hb with hb | hb <;> simp [hb]
  · simp [hph]

/-! ### The loops over pages (R186, R187) -/

theorem loopTest_done {count : Nat} {s : State} (h : s.fcl.locals.index = count) :
    loopTest count s = returnOp (.ok (.count count)) s := if_pos h

theorem loopTest_more {count : Nat} {s : State} (h : s.fcl.locals.index ≠ count) :
    loopTest count s = goto 3 s := if_neg h

/-- Settles O52: the two loops share the test and the count, and differ in the first step and the call. -/
theorem blockLoopSteps : Obligations.BlockLoopSteps := by
  intro s start count buffer
  simp only [List.forall_mem_cons, List.not_mem_nil, false_imp_iff, implies_true, and_true]
  refine ⟨fun h => ⟨fun hg => exec_atOp_of_raise h ?_, fun hg => exec_atOp_of_ok h ?_⟩,
    fun h => ⟨fun hg => exec_atOp_of_raise h ?_, fun g hg =>
      ⟨fun hb => exec_atOp_of_raise h ?_, fun hb => exec_atOp_of_ok h ?_⟩⟩,
    ⟨fun h => ⟨fun hn => exec_atOp_of_ok h (congrArg _ (loopTest_done hn)),
        fun hn => exec_atOp_of_ok h (congrArg _ (loopTest_more hn))⟩,
      fun h => ⟨fun hn => exec_atOp_of_ok h (congrArg _ (loopTest_done hn)),
        fun hn => exec_atOp_of_ok h (congrArg _ (loopTest_more hn))⟩⟩,
    fun h => exec_atOp_of_call h (opStep_eraseBlocks_three s start count),
    fun h => exec_atOp_of_call h (opStep_programBlocks_three s start count buffer),
    fun v h => exec_returned_ok h (opStep_eraseBlocks_three s start count),
    fun v h => exec_returned_ok h (opStep_programBlocks_three s start count buffer)⟩
  · simp [opStep, eraseBlocksStep, hg]
  · obtain ⟨g, hg⟩ := Option.ne_none_iff_exists'.1 hg
    simp [opStep, eraseBlocksStep, hg]
  · simp [opStep, programBlocksStep, hg]
  · simp [opStep, programBlocksStep, hg, Geometry.pageSize, hb]
  · simp [opStep, programBlocksStep, hg, Geometry.pageSize, hb]

/-! ### read_bytes (R188) and the power operations (R189 to R191) -/

theorem opStep_readBytes_one (off len : Nat) (s : State) : opStep (.readBytes off len) 1 s =
    require (off < 2 ^ 24) (.raise .readOutOfRange) >>= fun _ =>
      .ok (goto 2 (emit (.readRange off len) s)) := rfl

/-- Settles O53: the first step is the check of the offset's width. -/
theorem readBytesSteps : Obligations.ReadBytesSteps := by
  intro s off len
  refine ⟨fun h => ⟨fun hw => exec_atOp_of_raise h ?_, fun hw => exec_atOp_of_ok h ?_⟩,
    fun h => exec_atOp_of_call h (opStep_readBytes_two s off len),
    fun v h => exec_returned_ok h (opStep_readBytes_two s off len), fun h => exec_atOp_of_ok h rfl⟩ <;>
    rw [opStep_readBytes_one]
  · rw [require_of_not (Nat.not_lt.2 hw), bind_error]
  · rw [require_of hw]
    rfl

/-- Settles O54: a calling step, and steps that run through. -/
theorem powerOperationSteps : Obligations.PowerOperationSteps := fun s =>
  ⟨fun h => exec_atOp_of_call h (opStep_powerDown_one s), fun _ h => exec_returned_ok h (opStep_powerDown_one s),
    fun h => exec_atOp_of_ok h rfl,
    fun h => exec_atOp_of_call h (opStep_resume_one s), fun _ h => exec_returned_ok h (opStep_resume_one s),
    fun h => exec_atOp_of_ok h rfl,
    fun h => exec_atOp_of_ok h rfl,
    fun h => exec_atOp_of_call h (opStep_reprogramPageSize_one s),
    fun _ h => exec_returned_ok h (opStep_reprogramPageSize_one s), fun h => exec_atOp_of_ok h rfl⟩

/-! ### Errors of a called operation (R176, 60 R266) -/

/-- Settles O56: each of these steps is a calling step, whose rule for a returned error is the same for all. -/
theorem timeoutIsReturnedAtOnce : Obligations.TimeoutIsReturnedAtOnce := by
  intro s body mb p start count off len buffer
  simp only [List.forall_mem_cons, List.not_mem_nil, false_imp_iff, implies_true, and_true]
  refine ⟨⟨fun h => exec_returned_err h (opStep_waitReady_two s),
    fun h => exec_returned_err h (opStep_identify_one s),
    fun h => exec_returned_err h (opStep_deviceOp_three s body mb),
    fun h => exec_returned_err h (opStep_erasePage_two s p),
    fun h => exec_returned_err h (opStep_eraseChip_two s),
    fun h => exec_returned_err h (opStep_programPage_two s p buffer),
    fun h => exec_returned_err h (opStep_eraseBlocks_three s start count),
    fun h => exec_returned_err h (opStep_programBlocks_three s start count buffer),
    fun h => exec_returned_err h (opStep_readBytes_two s off len),
    fun h => exec_returned_err h (opStep_powerDown_one s),
    fun h => exec_returned_err h (opStep_resume_one s),
    fun h => exec_returned_err h (opStep_reprogramPageSize_one s),
    fun h => exec_returned_err h (opStep_init_two s),
    fun h => exec_returned_err h (opStep_init_three ?_),
    fun h => exec_returned_err h (opStep_init_four s)⟩,
    fun h hb => exec_returned_err h (callIf_of hb),
    fun h hb hm => exec_returned_err h (callIf_of ⟨hb, hm⟩),
    fun h hp => exec_returned_of_ok h (bracketClose_err hp h.ret)⟩
  simp [h.ret]

end Sys2Proof.Machine
end

section
/-! SUPPORT. The steps of issue_write and issue_read (41 R172, R173), which differ in their third and fifth alone, and
step 1 of init (R192), which raises chip select as their fourth does. -/

namespace Sys2Proof.Machine

/-! ### A body, then a move of the FCL -/

/-- A step whose body is `r` and then the move `f` answers what `r` by itself answers, moved on unless it is a fault. -/
theorem finish_then {s t : State} {r : Act State} {f : State → State} (hs : s.faults = [])
    (hr : ∀ u, r = .ok u → u.faults = s.faults) (h : finish s r = .next t) :
    finish s (r >>= fun u => pure (f u)) = .next (if t.faults = [] then f t else t) := by
  rcases finish_next_iff.1 h with rfl | ⟨e, rfl, rfl⟩
  · rw [if_pos ((hr t rfl).trans hs)]
    rfl
  · rw [if_neg (List.ne_nil_of_mem (mem_recordFault e s))]
    rfl

theorem exec_commit (s : State) : exec .commit s = finish s (commitFrame s) := rfl

theorem selectDevice_high {s : State} (h : s.cs = .high) :
    selectDevice s = { s with cs := .low, dev := { s.dev with frame := [] } } := by
  simp [selectDevice, h]

theorem selectDevice_low {s : State} (h : s.cs = .low) : selectDevice s = s := by simp [selectDevice, h]

theorem deselectDevice_high {s : State} (h : s.cs = .high) : deselectDevice s = .ok s := by simp [deselectDevice, h]

/-- R171: raising chip select is the commit, then the line. -/
theorem deselectDevice_low_bind {s : State} (h : s.cs = .low) (f : State → State) :
    (deselectDevice s >>= fun t => pure (f t)) = commitFrame s >>= fun t => pure (f { t with cs := .high }) := by
  simp only [deselectDevice, h]
  cases commitFrame s <;> rfl

section
variable {i : Instr} {f : List Byte} {n m : Nat} {s : State}

/-- A step that raises chip select (R171) and goes on. -/
theorem exec_deselects (h : AtOp i n s) (hi : i.isFclOp = true)
    (hstep : opStep i n s = deselectDevice s >>= fun t => pure (goto m t)) :
    (s.cs = .low → s.faults = [] → ∀ t, exec .commit s = .next t →
      exec i s = .next (if t.faults = [] then goto m { t with cs := .high } else t)) ∧
    (s.cs = .high → exec i s = .next (goto m s)) := by
  rw [exec_atOp h hi, hstep]
  refine ⟨fun hcs hs t ht => ?_, fun hcs => ?_⟩
  · rw [deselectDevice_low_bind hcs]
    exact finish_then (f := fun t => goto m { t with cs := .high }) hs (fun u hu => by rw [(commitFrame_ok hu).1])
      (exec_commit s ▸ ht)
  · rw [deselectDevice_high hcs]
    rfl

/-! ### The steps the two operations share -/

/-- `i` is an operation that fills TX with `f`, selects the device, and deselects it after its transfer: `issue_write`
or `issue_read` of `f`. -/
structure Issues (i : Instr) (f : List Byte) : Prop where
  isFclOp : i.isFclOp = true
  fills : ∀ s, opStep i 1 s = fillStep f s
  selects : ∀ s, opStep i 2 s = .ok (selectStep s)
  deselects : ∀ s, opStep i 4 s = deselectDevice s >>= fun t => pure (goto 5 t)

theorem issues_issueWrite (f : List Byte) (nCmd : Nat) : Issues (.issueWrite f nCmd) f :=
  ⟨rfl, fun _ => rfl, fun _ => rfl, fun _ => rfl⟩

theorem issues_issueRead (f : List Byte) (nResp : Nat) : Issues (.issueRead f nResp) f :=
  ⟨rfl, fun _ => rfl, fun _ => rfl, fun _ => rfl⟩

theorem fillStep_overflow (h : s.cfg.bufCap < f.length) : fillStep f s = .error (.raise .bufferOverflow) := by
  rw [fillStep, require_of_not (Nat.not_le.2 h), bind_error]

theorem fillStep_inFlight (hf : f.length ≤ s.cfg.bufCap) (hm : s.desc.mode ≠ .idle) :
    fillStep f s = .error (.raise .bufferAccessDuringTransfer) := by
  rw [fillStep, require_of hf, bind_ok, requireOwnership, require_of_not hm, bind_error]

theorem Issues.exec_fill (hi : Issues i f) (h : AtOp i 1 s) :
    (s.cfg.bufCap < f.length → exec i s = .next (recordFault .bufferOverflow s)) ∧
    (f.length ≤ s.cfg.bufCap → s.desc.mode ≠ .idle →
      exec i s = .next (recordFault .bufferAccessDuringTransfer s)) ∧
    (f.length ≤ s.cfg.bufCap → s.desc.mode = .idle → exec i s = .next (goto 2 (fillTx f s))) := by
  rw [exec_atOp h hi.isFclOp, hi.fills]
  refine ⟨fun hf => ?_, fun hf hm => ?_, fun hf hm => ?_⟩
  · rw [fillStep_overflow hf, finish_raise]
  · rw [fillStep_inFlight hf hm, finish_raise]
  · rw [fillStep_ok_iff.2 ⟨hf, hm, rfl⟩, finish_ok]

theorem Issues.exec_select (hi : Issues i f) (h : AtOp i 2 s) : exec i s = .next (goto 3 (selectDevice s)) :=
  exec_atOp_of_ok h (hi.selects s) hi.isFclOp

theorem Issues.exec_deselect (hi : Issues i f) (h : AtOp i 4 s) :
    (s.cs = .low → s.faults = [] → ∀ t, exec .commit s = .next t →
      exec i s = .next (if t.faults = [] then goto 5 { t with cs := .high } else t)) ∧
    (s.cs = .high → exec i s = .next (goto 5 s)) :=
  exec_deselects h hi.isFclOp (hi.deselects s)

end

/-! ### The call of the Transfer Engine -/

section
variable {i : Instr} {s t : State} {nCmd cmd tx rx n m : Nat} {fits : Prop} [Decidable fits]

theorem teCall_ok {b : Byte} (hm : s.desc.mode = .idle) (hn : 1 ≤ nCmd) (hf : fits) (hb : s.tx[0]? = some b)
    (hr : s.bus.state = .ready) : teCall nCmd fits cmd tx rx s = .ok { s with
      desc := ⟨.sendingCommandBytes, b, 1, tx, 0, rx, cmd⟩, bus := { s.bus with state := .shifting b },
      fg := .asleep } := by
  simp only [teCall, require_of, hm, hn, hf, bind_ok, startTransfer_ok_iff.2 ⟨b, hb, hr, rfl⟩]

theorem teCall_faults (h : teCall nCmd fits cmd tx rx s = .ok t) : t.faults = s.faults := by
  simp only [teCall, check_bind_ok_iff] at h
  obtain ⟨-, -, -, h⟩ := h
  rw [startTransfer_eq h]

/-- A step that calls the engine and goes on, where the call starts a transfer. -/
theorem exec_teCall_starts {b : Byte} (h : AtOp i n s) (hi : i.isFclOp = true)
    (hstep : opStep i n s = teCall nCmd fits cmd tx rx s >>= fun t => pure (goto m t)) (hm : s.desc.mode = .idle)
    (hn : 1 ≤ nCmd) (hf : fits) (hb : s.tx[0]? = some b) (hr : s.bus.state = .ready) :
    exec i s = .next (goto m { s with
      desc := ⟨.sendingCommandBytes, b, 1, tx, 0, rx, cmd⟩, bus := { s.bus with state := .shifting b },
      fg := .asleep }) := by
  rw [exec_atOp h hi, hstep, teCall_ok hm hn hf hb hr]
  rfl

/-- A step that calls the engine and goes on answers what the call by itself answers, moved on unless it is a fault. -/
theorem exec_teCall_then (h : AtOp i n s) (hi : i.isFclOp = true)
    (hstep : opStep i n s = teCall nCmd fits cmd tx rx s >>= fun t => pure (goto m t)) (hs : s.faults = [])
    (ht : finish s (teCall nCmd fits cmd tx rx s) = .next t) :
    exec i s = .next (if t.faults = [] then goto m t else t) := by
  rw [exec_atOp h hi, hstep]
  exact finish_then hs (fun _ => teCall_faults) ht

end

theorem opStep_issueWrite_three {f : List Byte} {nCmd : Nat} (s : State) (h : nCmd ≤ f.length) :
    opStep (.issueWrite f nCmd) 3 s =
      teCall nCmd (nCmd + (f.length - nCmd) ≤ s.cfg.bufCap) (nCmd - 1) (nCmd - 1 + (f.length - nCmd)) 0 s >>=
        fun t => pure (goto 4 t) := by
  simp only [opStep, issueWriteStep, require_of h]
  rfl

theorem opStep_issueRead_three (f : List Byte) (nResp : Nat) (s : State) : opStep (.issueRead f nResp) 3 s =
    teCall f.length (f.length ≤ s.cfg.bufCap ∧ nResp ≤ s.cfg.bufCap) (f.length - 1) (f.length - 1) nResp s >>=
      fun t => pure (goto 4 t) := rfl

/-! ### The obligations -/

/-- Settles O43: the shared steps, and the write call of step 3. -/
theorem issueWriteSteps : Obligations.IssueWriteSteps := by
  intro s f nCmd
  have hi := issues_issueWrite f nCmd
  refine ⟨hi.exec_fill, fun h => ?_, fun h => ⟨fun b hm hn hle hcap hr hb => ⟨_, ?_, rfl, ?_⟩, fun hs hle t ht => ?_⟩,
    hi.exec_deselect, fun h => exec_atOp_of_ok h rfl⟩
  · rw [hi.exec_select h]
    exact ⟨fun hcs => by rw [selectDevice_high hcs], fun hcs => by rw [selectDevice_low hcs]⟩
  · rw [exec_teWrite, show nCmd - 1 + (f.length - nCmd) = f.length - 1 by omega]
    exact teCall_starts hm hn (by omega) hb hr
  · rw [exec_teCall_starts h rfl (opStep_issueWrite_three s hle) hm hn (by omega) hb hr,
      show nCmd - 1 + (f.length - nCmd) = f.length - 1 by omega]
  · exact exec_teCall_then h rfl (opStep_issueWrite_three s hle) hs ht

/-- Settles O44: the shared steps, the read call of step 3, and the ownership check of step 5. -/
theorem issueReadSteps : Obligations.IssueReadSteps := by
  intro s f nResp
  have hi := issues_issueRead f nResp
  refine ⟨hi.exec_fill, fun h => ?_, fun h => ⟨fun b hm hn hcap hresp hr hb => ⟨_, ?_, rfl, ?_⟩, fun hs t ht => ?_⟩,
    hi.exec_deselect, fun h => ⟨fun hm => exec_atOp_of_ok h ?_, fun hm => exec_atOp_of_raise h ?_⟩⟩
  · rw [hi.exec_select h]
    exact ⟨fun hcs => by rw [selectDevice_high hcs], fun hcs => by rw [selectDevice_low hcs]⟩
  · exact (exec_teRead ..).trans (teCall_starts hm hn ⟨hcap, hresp⟩ hb hr)
  · exact exec_teCall_starts h rfl (opStep_issueRead_three f nResp s) hm hn ⟨hcap, hresp⟩ hb hr
  · exact exec_teCall_then h rfl (opStep_issueRead_three f nResp s) hs ht
  · simp only [opStep, issueReadStep, requireOwnership, require_of hm]
    rfl
  · simp only [opStep, issueReadStep, requireOwnership, require_of_not hm, bind_error]

/-- R192 step 3, to which `identify` has returned that the device is unrecognized. -/
theorem opStep_init_three_unrecognized {s : State} (h : s.fcl.locals.ret = some (.err .unrecognizedDevice)) :
    opStep .init 3 s = .ok (returnOp (.err .unrecognizedDevice) (emit .unrecognized s)) := by
  simp [opStep, initStep, initIdentify, h]

/-- A return drops the locals of the operation that returns (R51). -/
theorem returnOp_setLocals (r : Result) (l : Locals) (s : State) : returnOp r (setLocals l s) = returnOp r s := by
  cases hs : s.fcl.stack <;> simp [returnOp, setLocals, hs]

/-- Settles O55: step 1 raises chip select, and the steps after it are calls and moves. -/
theorem initSteps : Obligations.InitSteps := by
  intro s
  refine ⟨fun h => (exec_deselects h rfl rfl).2, fun h => (exec_deselects h rfl rfl).1,
    fun h => exec_atOp_of_call h (opStep_init_two s), fun v h => exec_returned_ok h (opStep_init_two s),
    fun h => exec_atOp_of_call h (opStep_init_three ?_),
    fun h => exec_returned_of_ok h (opStep_init_three_unrecognized h.ret),
    fun v h => exec_returned_ok h (opStep_init_three ?_),
    fun h => exec_atOp_of_call h (opStep_init_four s), fun b h => exec_returned_ok h (opStep_init_four s),
    fun h => ⟨fun hp => exec_atOp_of_ok h (if_pos hp), fun hp => exec_atOp_of_call h (opStep_init_five hp)⟩,
    fun v h hp => exec_returned_ok h (opStep_init_five hp) ?_,
    fun h => ⟨fun hp => exec_atOp_of_call h (callIf_of hp), fun hp => exec_atOp_of_ok h (callIf_of_not ?_)⟩,
    fun v h => exec_returned_callIf h rfl, fun h => exec_atOp_of_ok h rfl⟩
  · simp [h.ret]
  · simp [h.ret]
  · exact congrArg Except.ok (returnOp_setLocals _ _ { s with trace := s.trace ++ [.legacyPageFormat] })
  · simp [hp]

end Sys2Proof.Machine
end

section
/-! SUPPORT. Frames at the device: what reads back as a fast read (42 R221, R230), what a page program leaves (R231),
and that a frame's effect depends on the device and the parameters alone. -/

namespace Sys2Proof.Machine

/-! ### The decoder answers frames -/

/-- What reads the rest of a frame answers frames alone. -/
def ReadsFrames (d : TailDecoder) : Prop := ∀ rest i, d rest = .ok i → i.isFrame = true

theorem readsFrames_op1 {i : Instr} (hi : i.isFrame = true) : ReadsFrames (decodeOp1 i) := by
  intro rest j h
  cases rest with
  | nil =>
    cases h
    exact hi
  | cons b rest => cases h

theorem readsFrames_addr {mk : Offset → Instr} (hi : ∀ off, (mk off).isFrame = true) :
    ReadsFrames (decodeAddr mk) := by
  intro rest j h
  unfold decodeAddr at h
  split at h <;> cases h
  exact hi _

theorem readsFrames_prog {mk : Offset → List Byte → Instr} (hi : ∀ off l, (mk off l).isFrame = true) :
    ReadsFrames (decodeProg mk) := by
  intro rest j h
  unfold decodeProg at h
  split at h <;> cases h
  exact hi _ _

theorem readsFrames_read {mk : Offset → Nat → Instr} (hi : ∀ off n, (mk off n).isFrame = true) :
    ReadsFrames (decodeRead mk) := by
  intro rest j h
  unfold decodeRead at h
  split at h <;> cases h
  exact hi _ _

theorem readsFrames_seq4 {q : Seq4} {i : Instr} (hi : i.isFrame = true) : ReadsFrames (decodeSeq4 q i) := by
  intro rest j h
  simp only [decodeSeq4] at h
  split_ifs at h
  cases h
  exact hi

theorem readsFrames_of_mem_decoders {c : Config} {row : Byte × TailDecoder} (h : row ∈ c.decoders) :
    ReadsFrames row.2 := by
  revert row
  simp only [Config.decoders, List.forall_mem_cons, List.not_mem_nil, false_imp_iff, implies_true, and_true]
  refine ⟨?_, ?_, readsFrames_read fun _ _ => rfl, readsFrames_prog fun _ _ => rfl, readsFrames_addr fun _ => rfl,
    readsFrames_addr fun _ => rfl, readsFrames_prog fun _ _ => rfl, readsFrames_read fun _ _ => rfl,
    readsFrames_addr fun _ => rfl, readsFrames_addr fun _ => rfl, readsFrames_op1 rfl, readsFrames_op1 rfl,
    readsFrames_seq4 rfl, readsFrames_seq4 rfl⟩
  all_goals
    rintro rest i ⟨⟩
    rfl

theorem readsFrames_dispatch {table : List (Byte × TailDecoder)} (h : ∀ row ∈ table, ReadsFrames row.2) (op : Byte) :
    ReadsFrames (dispatch table op) := by
  induction table with
  | nil => rintro rest i ⟨⟩
  | cons row table ih =>
    obtain ⟨hrow, htable⟩ := List.forall_mem_cons.1 h
    intro rest i hi
    rw [dispatch] at hi
    split at hi
    · exact hrow rest i hi
    · exact ih htable rest i hi

/-- Every instruction the device's decoder answers is a frame. -/
theorem isFrame_of_decode {c : Config} {f : List Byte} {i : Instr} (h : decode c f = .ok i) : i.isFrame = true := by
  cases f with
  | nil => cases h
  | cons op rest =>
    rw [decode_cons] at h
    exact readsFrames_dispatch (fun _ => readsFrames_of_mem_decoders) op rest i h

/-! ### Effects -/

theorem exec_frame {i : Instr} (hi : i.isFrame = true) (s : State) : exec i s = finish s (frameEffect i s) := by
  cases i <;> simp only [Instr.isFrame, reduceCtorEq] at hi <;> rfl

/-- The state `t` with the parameters and the device of `s`, which are all that a frame's effect depends on. -/
def withDeviceOf (t s : State) : State := { t with cfg := s.cfg, dev := s.dev }

/-- A body whose checks agree ends as the other does, with the same change of the state it ends in. -/
theorem bind_eq_map {α : Type} {x : Act α} {k' k : α → Act State} {g : State → State}
    (h : ∀ a, k' a = (k a).map g) : (x >>= k') = (x >>= k).map g := by
  cases x with
  | ok a => exact h a
  | error e => rfl

/-- R222: a frame's effect reads and writes the device alone. -/
theorem frameEffect_withDeviceOf (i : Instr) (t s : State) :
    frameEffect i (withDeviceOf t s) = (frameEffect i s).map (withDeviceOf t) := by
  cases i
  case identifyFrame | readStatusFrame | chipEraseFrame | powerDownFrame | resumeFrame | pageSizePow2Frame =>
    exact bind_eq_map fun _ => rfl
  case pageEraseFrame => exact bind_eq_map fun _ => bind_eq_map fun _ => rfl
  case fastReadFrame | pageProgramFrame | blockEraseFrame | bufferWriteFrame | bufferReadFrame | bufferToMainFrame |
      mainToBufferFrame =>
    exact bind_eq_map fun _ => bind_eq_map fun _ => bind_eq_map fun _ => rfl
  all_goals rfl

/-- On a state with the same parameters and device a frame has the same effect on the device. -/
theorem frameEffect_of_same_device {i : Instr} {s t u : State} (hc : t.cfg = s.cfg) (hd : t.dev = s.dev)
    (h : frameEffect i s = .ok u) : frameEffect i t = .ok { t with dev := u.dev } := by
  have ht : withDeviceOf t s = t := by rw [withDeviceOf, ← hc, ← hd]
  have hu : u.cfg = t.cfg := by rw [(frameEffect_ok h).1, hc]
  rw [← ht, frameEffect_withDeviceOf, h, ht]
  exact congrArg Except.ok (by rw [withDeviceOf, hu])

/-! ### Fast read (R221, R230) -/

/-- R120: of the fourteen first bytes, the fast read's is neither the identification's nor the status read's. -/
theorem opcFastRead_ne {c : Config} (h : c.firstBytesDistinct = true) :
    c.opcFastRead ≠ c.opcIdentify ∧ c.opcFastRead ≠ c.opcStatus := by
  simp only [Config.firstBytesDistinct, Config.firstBytes, allDistinct, Bool.and_eq_true, Bool.not_eq_true',
    List.contains_eq_mem, decide_eq_false_iff_not, List.mem_cons, not_or] at h
  obtain ⟨⟨-, hi, -⟩, ⟨hs, -⟩, -⟩ := h
  exact ⟨Ne.symm hi, Ne.symm hs⟩

/-- What an active device drives while a fast read's response is exchanged, inside the array. -/
theorem deviceOutput_fastRead {s : State} {x y z d free : Byte} {more : List Byte}
    (hc : s.cfg.firstBytesDistinct = true) (hp : s.dev.power = .active)
    (hf : s.dev.frame = s.cfg.opcFastRead :: x :: y :: z :: d :: more)
    (ha : (offsetOf x y z).toNat + more.length < deviceCap s) :
    deviceOutput s free = s.dev.array.read ((offsetOf x y z).toNat + more.length) := by
  obtain ⟨hi, hs⟩ := opcFastRead_ne hc
  simp only [deviceOutput, hp, hf, if_neg hi, if_neg hs, if_true, reduceCtorEq, if_false]
  exact if_pos ha

/-! ### A programmed page reads back -/

/-- R231: an aligned whole page is programmed. -/
theorem exec_pageProgramFrame {s : State} {off : Offset} {payload : List Byte} (h : PageFrameTaken off s)
    (ha : off.toNat % devicePage s = 0) (hl : payload.length = devicePage s) :
    exec (.pageProgramFrame off payload) s = .next (writeArrayBusy (s.dev.array.writeBytes off.toNat
      (programmedBytes s.cfg (s.dev.array.readBytes off.toNat (devicePage s)) payload)) s) := by
  rw [exec_frame rfl, finish_next_iff]
  simp only [frameEffect, pageProgramFrameEffect, check_bind_ok_iff, requirePageFrame_ok_iff, requireAligned,
    requireWholePage, require_ok_iff]
  exact .inl ⟨h, ha, hl, rfl⟩

/-- Settles O40: the byte the device drives is the array's, which after the program is the payload's. -/
theorem programmedPageReadsBack : Obligations.ProgrammedPageReadsBack := by
  intro s t u off payload j b free d x y z more h ha hl hsem hc ht harray hcfg hp hoff hmore hb hf
  rw [exec_pageProgramFrame h ha hl, programmedBytes, hsem] at ht
  cases ht
  have hj : j < devicePage s := hl ▸ (List.getElem?_eq_some_iff.1 hb).1
  have hend := page_in_array h.2.2 ha
  have hcap : deviceCap u = deviceCap s := by rw [deviceCap, hcfg]; rfl
  have hfu : u.dev.frame = u.cfg.opcFastRead :: x :: y :: z :: d :: more := by rw [hf, hcfg]; rfl
  subst hoff hmore
  rw [deviceOutput_fastRead (hcfg ▸ hc) hp hfu (by omega), harray]
  simp [Memory.read_writeBytes, hb]

end Sys2Proof.Machine
end

section
/-! SUPPORT. One whole issue_write or issue_read (41 R172, R173): fill, select and call, the transfer's rounds, then the
commit at the raised chip select and the return. -/

namespace Sys2Proof.Machine

theorem atOp_goto {i : Instr} {n m : Nat} {s : State} (hr : s.fg = .running) (hp : s.fcl.pc = some ⟨i, n⟩) :
    AtOp i m (goto m s) := ⟨hr, by rw [goto_fcl hp], rfl⟩

/-- What a return leaves depends on the stack, the geometry and the results alone (R67). -/
theorem returnOp_fcl_congr {s t : State} (r : Result) (hs : t.fcl.stack = s.fcl.stack)
    (hg : t.fcl.geometry = s.fcl.geometry) (hr : t.fcl.results = s.fcl.results) :
    (returnOp r t).fcl = (returnOp r s).fcl := by
  cases h : s.fcl.stack <;> simp [returnOp, hs, h, hg, hr]

/-- R161: an awake foreground means that no transfer is in flight. -/
theorem Inv.idle_of_running {s : State} (h : Inv s) (hr : s.fg = .running) : s.desc.mode = .idle := by
  by_contra hm
  simp [(h.transfer.inFlight hm).1] at hr

/-! ### Fill and select -/

/-- The state in which an operation on the frame `f` calls the engine: TX holds `f` and the device is selected. -/
def frameReady (f : List Byte) (s : State) : State := goto 3 (selectDevice (goto 2 (fillTx f s)))

section
variable {i : Instr} {f : List Byte} {s : State}

@[simp] theorem frameReady_cfg : (frameReady f s).cfg = s.cfg := by simp [frameReady]
@[simp] theorem frameReady_tx : (frameReady f s).tx = f ++ s.tx.drop f.length := by simp [frameReady]
@[simp] theorem frameReady_rx : (frameReady f s).rx = s.rx := by simp [frameReady]
@[simp] theorem frameReady_cs : (frameReady f s).cs = .low := by simp [frameReady]
@[simp] theorem frameReady_desc : (frameReady f s).desc = s.desc := by simp [frameReady]
@[simp] theorem frameReady_faults : (frameReady f s).faults = s.faults := by simp [frameReady]
@[simp] theorem frameReady_trace : (frameReady f s).trace = s.trace := by simp [frameReady]
@[simp] theorem frameReady_stack : (frameReady f s).fcl.stack = s.fcl.stack := by simp [frameReady]
@[simp] theorem frameReady_geometry : (frameReady f s).fcl.geometry = s.fcl.geometry := by simp [frameReady]
@[simp] theorem frameReady_results : (frameReady f s).fcl.results = s.fcl.results := by simp [frameReady]

theorem frameReady_dev (h : Inv s) (hcs : s.cs = .high) : (frameReady f s).dev = s.dev := by
  have hfill : (goto 2 (fillTx f s)).cs = .high := hcs
  rw [frameReady, goto_dev, selectDevice_dev_high hfill, goto_dev, fillTx_dev, ← h.frameWhileDeselected hcs]

theorem atOp_frameReady (h : AtOp i 1 s) : AtOp i 3 (frameReady f s) := by
  refine atOp_goto (n := 2) (by simpa using h.running) ?_
  rw [selectDevice_fcl, goto_fcl (s := fillTx f s) h.pc]

theorem inv_goto {s : State} (h : Inv s) (n : Nat) : Inv (goto n s) :=
  h.controlOnly (controlOnly_goto n s) (stackOk_goto h.stack n)

theorem inv_frameReady (h : Inv s) (hf : f.length ≤ s.cfg.bufCap) : Inv (frameReady f s) :=
  inv_goto (inv_selectDevice (inv_goto (inv_fillTx h hf) 2)) 3

/-- The first two steps. -/
theorem Issues.exec_frameReady (hi : Issues i f) (h : Inv s) (hat : AtOp i 1 s) (hf : f.length ≤ s.cfg.bufCap) :
    thenExec (exec i s) i = .next (frameReady f s) := by
  obtain ⟨-, -, hfill⟩ := hi.exec_fill hat
  rw [hfill hf (h.idle_of_running hat.running)]
  exact hi.exec_select (atOp_goto hat.running hat.pc)

/-! ### The transfer -/

/-- The state in which an operation on `f` with `nResp` response bytes raises chip select: the device has received `f`
and the fillers, and RX holds its answers to these. -/
def frameSent (f : List Byte) (nResp : Nat) (d : Descriptor) (r : Byte) (s : State) : State :=
  finishTransfer (midTransfer (goto 4 (frameReady f s)) (f ++ List.replicate nResp s.cfg.filler)
    (rxAfter (goto 4 (frameReady f s)) f nResp) d ⟨.ready, false, r⟩)

/-- The move of the FCL after the call leaves the transfer as it is. -/
theorem TransferBegun.goto {u : State} {nTx nResp : Nat} (h : TransferBegun s nTx nResp u) (n : Nat) :
    TransferBegun (goto n s) nTx nResp (goto n u) := by
  obtain ⟨hcs, hn, htx, hrx, d, b, r, hd, hb, rfl⟩ := h
  exact ⟨hcs, hn, htx, hrx, d, b, r, hd, hb, rfl⟩

/-- Operation `i`, in the state `s` in which it calls the engine, begins a transfer of `nTx` bytes of TX and `nResp`
response bytes, and goes on at step 4. -/
def CallBegins (i : Instr) (nTx nResp : Nat) (s : State) : Prop :=
  ∃ u, exec i s = .next (goto 4 u) ∧ TransferBegun s nTx nResp u

/-- From the call on, the foreground stays at step 4 until the transfer has ended. -/
theorem Issues.rounds_frameSent (hi : Issues i f) (h : Inv s) (hat : AtOp i 1 s) (hf : f.length ≤ s.cfg.bufCap)
    {nResp : Nat} (hcall : CallBegins i f.length nResp (frameReady f s)) :
    ∃ d r, thenRounds (thenExec (thenExec (exec i s) i) i) (f.length + nResp) = .next (frameSent f nResp d r s) := by
  obtain ⟨u, hu, hbegun⟩ := hcall
  obtain ⟨d, r, hrun⟩ := rounds_transfer (hbegun.goto 4)
  refine ⟨d, r, ?_⟩
  rw [hi.exec_frameReady h hat hf]
  simpa [thenExec, hu, thenRounds, frameSent] using hrun

section
variable {nResp : Nat} {d : Descriptor} {r : Byte}

theorem atOp_frameSent (h : AtOp i 1 s) : AtOp i 4 (frameSent f nResp d r s) := by
  have hready : AtOp i 3 (frameReady f s) := atOp_frameReady h
  have hgoto : AtOp i 4 (goto 4 (frameReady f s)) := atOp_goto hready.running hready.pc
  exact ⟨rfl, hgoto.pc, hgoto.ret⟩

@[simp] theorem frameSent_cfg : (frameSent f nResp d r s).cfg = s.cfg := by simp [frameSent]
@[simp] theorem frameSent_cs : (frameSent f nResp d r s).cs = .low := by simp [frameSent]
@[simp] theorem frameSent_fcl : (frameSent f nResp d r s).fcl = (goto 4 (frameReady f s)).fcl := rfl
@[simp] theorem frameSent_trace : (frameSent f nResp d r s).trace = s.trace := by simp [frameSent, midTransfer]
@[simp] theorem frameSent_faults : (frameSent f nResp d r s).faults = s.faults := by simp [frameSent]

theorem frameSent_dev (h : Inv s) (hcs : s.cs = .high) : (frameSent f nResp d r s).dev =
    { s.dev with frame := f ++ List.replicate nResp s.cfg.filler } := by
  simp [frameSent, frameReady_dev h hcs, h.frameWhileDeselected hcs]

/-! ### Commit and return -/

/-- The state in which an operation on `f` returns: the device, `dev`, is deselected. -/
def frameDone (f : List Byte) (nResp : Nat) (d : Descriptor) (r : Byte) (dev : Device) (s : State) : State :=
  goto 5 { frameSent f nResp d r s with cs := .high, dev := dev }

/-- The frame that the raised chip select commits is `f` with the fillers, and it has on the device the effect it has
on the state before the operation. -/
theorem commitFrame_frameSent {j : Instr} {u : State} (h : Inv s) (hcs : s.cs = .high)
    (hp : s.cfg.devPresent = true) (hj : decode s.cfg (f ++ List.replicate nResp s.cfg.filler) = .ok j)
    (hu : frameEffect j s = .ok u) :
    commitFrame (frameSent f nResp d r s) = .ok { frameSent f nResp d r s with dev := u.dev } := by
  have hdev := frameSent_dev (f := f) (nResp := nResp) (d := d) (r := r) h hcs
  have hclear : (clearFrame (frameSent f nResp d r s)).dev = s.dev := by
    rw [clearFrame_dev, hdev, ← h.frameWhileDeselected hcs]
  refine commitFrame_ok_iff.2 (.inr ⟨by simpa using hp, j, by rw [hdev, frameSent_cfg, hj], ?_⟩)
  exact frameEffect_of_same_device frameSent_cfg hclear hu

/-- Of a whole operation on `f`, all but its last step. -/
theorem Issues.run_frameDone (hi : Issues i f) (h : Inv s) (hat : AtOp i 1 s) (hf : f.length ≤ s.cfg.bufCap)
    (hcs : s.cs = .high) (hp : s.cfg.devPresent = true) {nResp : Nat}
    (hcall : CallBegins i f.length nResp (frameReady f s))
    {j : Instr} {u : State} (hj : decode s.cfg (f ++ List.replicate nResp s.cfg.filler) = .ok j)
    (hu : frameEffect j s = .ok u) :
    ∃ d r, thenExec (thenRounds (thenExec (thenExec (exec i s) i) i) (f.length + nResp)) i =
      .next (frameDone f nResp d r u.dev s) := by
  obtain ⟨d, r, hrun⟩ := hi.rounds_frameSent h hat hf hcall
  refine ⟨d, r, ?_⟩
  rw [hrun]
  refine exec_atOp_of_ok (atOp_frameSent hat) ?_ hi.isFclOp
  rw [hi.deselects, deselectDevice_low_bind frameSent_cs, commitFrame_frameSent h hcs hp hj hu]
  rfl

theorem atOp_frameDone {dev : Device} (h : AtOp i 1 s) : AtOp i 5 (frameDone f nResp d r dev s) :=
  atOp_goto (s := { frameSent f nResp d r s with cs := .high, dev := dev }) rfl
    (atOp_frameSent (f := f) (nResp := nResp) (d := d) (r := r) h).pc

@[simp] theorem frameDone_cfg {dev : Device} : (frameDone f nResp d r dev s).cfg = s.cfg := by
  simp [frameDone]
@[simp] theorem frameDone_mode {dev : Device} : (frameDone f nResp d r dev s).desc.mode = .idle := rfl
@[simp] theorem frameDone_rx {dev : Device} :
    (frameDone f nResp d r dev s).rx = rxAfter (goto 4 (frameReady f s)) f nResp := rfl
@[simp] theorem frameDone_fg {dev : Device} : (frameDone f nResp d r dev s).fg = .running := rfl
@[simp] theorem frameDone_cs {dev : Device} : (frameDone f nResp d r dev s).cs = .high := rfl
@[simp] theorem frameDone_dev {dev : Device} : (frameDone f nResp d r dev s).dev = dev := rfl
@[simp] theorem frameDone_trace {dev : Device} : (frameDone f nResp d r dev s).trace = s.trace := by
  simp [frameDone]
@[simp] theorem frameDone_faults {dev : Device} : (frameDone f nResp d r dev s).faults = s.faults := by
  simp [frameDone]

/-- The operation returns to the caller it was called from. -/
@[simp] theorem returnOp_frameDone_fcl {dev : Device} (v : Result) :
    (returnOp v (frameDone f nResp d r dev s)).fcl = (returnOp v s).fcl :=
  returnOp_fcl_congr v (by simp [frameDone]) (by simp [frameDone]) (by simp [frameDone])

end

end

/-! ### The call -/

/-- A step 3 that calls the engine begins a transfer from a state that meets the invariant. -/
theorem callBegins_of_teCall {i : Instr} {s : State} {nCmd cmd tx rx : Nat} {fits : Prop} [Decidable fits] (h : Inv s)
    (hat : AtOp i 3 s) (hi : i.isFclOp = true)
    (hstep : opStep i 3 s = teCall nCmd fits cmd tx rx s >>= fun t => pure (goto 4 t)) (hcs : s.cs = .low)
    (hn : 1 ≤ nCmd) (hf : fits) (htx : 1 + tx ≤ s.cfg.bufCap) (hrx : rx ≤ s.cfg.bufCap) (hcmd : cmd ≤ tx)
    (hread : 0 < rx → cmd = tx) : CallBegins i (1 + tx) rx s := by
  have hm := h.idle_of_running hat.running
  obtain ⟨-, hr, -⟩ := h.transfer.atRest hm
  have hb : s.tx[0]? = some (s.tx[0]'(by rw [h.txLength]; omega)) := List.getElem?_eq_getElem _
  exact ⟨_, exec_teCall_starts hat hi hstep hm hn hf hb hr,
    transferBegun_of_teCall h hm hcs hn hf htx hrx hcmd hread (teCall_starts hm hn hf hb hr)⟩

/-! ### The whole write (R172, R222) -/

/-- Settles O59: the transfer delivers the frame, and the commit has on the device the effect of the decoded frame. -/
theorem issueWriteHasTheFramesEffect : Obligations.IssueWriteHasTheFramesEffect := by
  intro s u f nCmd i h hfaults hcs hp hat hn hle hf hdecode hu hufaults
  have hi := issues_issueWrite f nCmd
  have heffect : frameEffect i s = .ok u := by
    rw [exec_frame (isFrame_of_decode hdecode)] at hu
    rcases finish_next_iff.1 hu with hu | ⟨e, -, rfl⟩
    · exact hu
    · exact absurd hufaults (List.ne_nil_of_mem (mem_recordFault e s))
  have hcall := callBegins_of_teCall (inv_frameReady h hf) (atOp_frameReady hat) rfl (opStep_issueWrite_three _ hle)
    frameReady_cs hn (by rw [frameReady_cfg]; omega) (by rw [frameReady_cfg]; omega) (Nat.zero_le _) (by omega) nofun
  rw [show 1 + (nCmd - 1 + (f.length - nCmd)) = f.length by omega] at hcall
  obtain ⟨d, r, hrun⟩ := hi.run_frameDone h hat hf hcs hp hcall (j := i) (by simpa using hdecode) heffect
  refine ⟨returnOp (.ok .unit) (frameDone f 0 d r u.dev s), ?_, ?_⟩
  · exact (congrArg (thenExec · (.issueWrite f nCmd)) hrun).trans (exec_atOp_of_ok (atOp_frameDone hat) rfl)
  · simp [hfaults]

/-! ### The whole fast read (R188, R230) -/

theorem readFrame_append (c : Config) (off : Nat) (l : List Byte) : readFrame c off ++ l =
    c.opcFastRead :: (BitVec.ofNat 24 off).extractLsb' 16 8 :: (BitVec.ofNat 24 off).extractLsb' 8 8 ::
      (BitVec.ofNat 24 off).extractLsb' 0 8 :: c.filler :: l := rfl

/-- The head that `read_bytes` sends, with the fillers, is the encoded fast read (R101, R188). -/
theorem encode_fastReadFrame (c : Config) (off n : Nat) : encode c (.fastReadFrame (BitVec.ofNat 24 off) n) =
    some (readFrame c off ++ List.replicate n c.filler) := rfl

theorem decode_readFrame {c : Config} (hc : c.firstBytesDistinct = true) (off n : Nat) :
    decode c (readFrame c off ++ List.replicate n c.filler) = .ok (.fastReadFrame (BitVec.ofNat 24 off) n) := by
  obtain ⟨g, hg, hdecode⟩ := encodedFramesDecodeBack c (.fastReadFrame (BitVec.ofNat 24 off) n) hc rfl
  rw [encode_fastReadFrame] at hg
  cases hg
  exact hdecode

/-- R230: a fast read inside the array is accepted and has no effect. -/
theorem frameEffect_fastReadFrame {s : State} {off : Offset} {n : Nat} (hidle : DeviceIdle s)
    (hpow2 : s.dev.format = .pow2) (hend : off.toNat + n ≤ deviceCap s) :
    frameEffect (.fastReadFrame off n) s = .ok s := by
  simp only [frameEffect, fastReadFrameEffect, check_bind_ok_iff, requireIdleDevice_ok_iff, requirePow2,
    requireReadRange, require_ok_iff]
  exact ⟨hidle, hpow2, .inr hend, rfl⟩

section
variable {s : State} {x y z d : Byte} {more : List Byte} {off n : Nat}

/-- What the device answers in a fast read inside the array. -/
theorem answer_fastRead (hp : s.cfg.devPresent = true) (hc : s.cfg.firstBytesDistinct = true)
    (hactive : s.dev.power = .active) (hframe : s.dev.frame = [])
    (ha : (offsetOf x y z).toNat + more.length < deviceCap s) :
    answer s (s.cfg.opcFastRead :: x :: y :: z :: d :: more) =
      s.dev.array.read ((offsetOf x y z).toNat + more.length) :=
  (if_pos hp).trans (deviceOutput_fastRead hc hactive (congrArg (· ++ _) hframe) ha)

/-- A device that has received the head of a fast read answers the array's bytes to the fillers. -/
theorem responseBytes_readFrame (hp : s.cfg.devPresent = true) (hc : s.cfg.firstBytesDistinct = true)
    (hactive : s.dev.power = .active) (hframe : s.dev.frame = []) (hoff : off < 2 ^ 24)
    (hend : off + n ≤ deviceCap s) :
    responseBytes s (readFrame s.cfg off) n = s.dev.array.readBytes off n := by
  have hnat : (BitVec.ofNat 24 off).toNat = off := by simpa using hoff
  refine List.map_congr_left fun j hj => ?_
  have hj : j < n := List.mem_range.1 hj
  rw [readFrame_append, answer_fastRead hp hc hactive hframe] <;> rw [offsetOf_addr3, hnat, List.length_replicate]
  omega

/-- After a fast read of the array RX begins with its bytes. -/
theorem take_rx_frameDone_readFrame {d : Descriptor} {r : Byte} {dev : Device} (h : Inv s) (hcs : s.cs = .high)
    (hp : s.cfg.devPresent = true) (hc : s.cfg.firstBytesDistinct = true) (hactive : s.dev.power = .active)
    (hoff : off < 2 ^ 24) (hend : off + n ≤ deviceCap s) :
    (frameDone (readFrame s.cfg off) n d r dev s).rx.take n = s.dev.array.readBytes off n := by
  have hready : (frameReady (readFrame s.cfg off) s).dev = s.dev := frameReady_dev h hcs
  rw [frameDone_rx, rxAfter, List.take_left' (length_responseBytes ..)]
  simpa [hready] using responseBytes_readFrame (s := goto 4 (frameReady (readFrame s.cfg off) s)) (off := off)
    (n := n) (by simpa using hp) (by simpa using hc) (by simpa [hready] using hactive)
    (by simpa [hready] using h.frameWhileDeselected hcs) hoff (by simpa [deviceCap] using hend)

end

/-- Settles O60: the commit of the fast read has no effect, and RX holds the array's bytes. -/
theorem issuedFastReadReturnsTheArray : Obligations.IssuedFastReadReturnsTheArray := by
  intro s off len h hfaults hcs hp hc hidle hpow2 hend hoff hcap hlen hat
  have hi := issues_issueRead (readFrame s.cfg off) len
  have hf : (readFrame s.cfg off).length ≤ s.cfg.bufCap := hcap
  have hnat : (BitVec.ofNat 24 off).toNat = off := by simpa using hoff
  have hcall := callBegins_of_teCall (inv_frameReady h hf) (atOp_frameReady hat) rfl (opStep_issueRead_three _ len _)
    frameReady_cs (show 1 ≤ 5 by omega) (by rw [frameReady_cfg]; exact ⟨hf, hlen⟩) (by rw [frameReady_cfg]; exact hcap)
    (by rwa [frameReady_cfg]) le_rfl fun _ => rfl
  obtain ⟨d, r, hrun⟩ := hi.run_frameDone h hat hf hcs hp hcall (decode_readFrame hc off len)
    (frameEffect_fastReadFrame hidle hpow2 (by rwa [hnat]))
  have hrx : (frameDone (readFrame s.cfg off) len d r s.dev s).rx.take len = s.dev.array.readBytes off len :=
    take_rx_frameDone_readFrame h hcs hp hc hidle.1 hoff hend
  refine ⟨returnOp (.ok (.bytes (s.dev.array.readBytes off len))) (frameDone (readFrame s.cfg off) len d r s.dev s),
    ?_, ?_⟩
  · refine (congrArg (thenExec · (.issueRead (readFrame s.cfg off) len)) hrun).trans
      (exec_atOp_of_ok (atOp_frameDone hat) ?_)
    rw [← hrx]
    rfl
  · simp [hfaults]

end Sys2Proof.Machine
end

section
/-! SUPPORT. The commit at the raised chip select (42 R222): which frames the decoder rejects, and by which name (R242,
R243), and what a decoded frame does. -/

namespace Sys2Proof

/-! ### What the decoder rejects -/

/-- R242: a first byte under no row of the table is unknown. -/
theorem dispatch_of_notMem {table : List (Byte × TailDecoder)} {op : Byte} (h : op ∉ table.map Prod.fst)
    (rest : List Byte) : dispatch table op rest = .error .unknownCommand := by
  induction table with
  | nil => rfl
  | cons row table ih =>
    obtain ⟨hne, htable⟩ := not_or.1 (List.mem_cons.not.1 h)
    exact (if_neg hne).trans (ih htable)

theorem decode_of_notMem_firstBytes {c : Config} {op : Byte} (h : op ∉ c.firstBytes) (rest : List Byte) :
    decode c (op :: rest) = .error .unknownCommand := by
  rw [decode_cons]
  exact dispatch_of_notMem (by rwa [map_fst_decoders]) rest

theorem decodeOp1_of_ne_nil {i : Instr} {rest : List Byte} (h : rest ≠ []) :
    decodeOp1 i rest = .error .malformedFrame := by
  cases rest with
  | nil => exact absurd rfl h
  | cons b rest => rfl

theorem decodeAddr_of_length_ne {mk : Offset → Instr} {rest : List Byte} (h : rest.length ≠ 3) :
    decodeAddr mk rest = .error .malformedFrame := by
  unfold decodeAddr
  split
  · exact absurd rfl h
  · rfl

theorem decodeProg_of_length_lt {mk : Offset → List Byte → Instr} {rest : List Byte} (h : rest.length < 3) :
    decodeProg mk rest = .error .malformedFrame := by
  unfold decodeProg
  split
  · simp only [List.length_cons] at h
    omega
  · rfl

theorem decodeRead_of_length_lt {mk : Offset → Nat → Instr} {rest : List Byte} (h : rest.length < 4) :
    decodeRead mk rest = .error .malformedFrame := by
  unfold decodeRead
  split
  · simp only [List.length_cons] at h
    omega
  · rfl

theorem decodeSeq4_broken {q : Seq4} {i : Instr} {rest : List Byte}
    (h : rest.take 3 ≠ [q.s1, q.s2, q.s3].take rest.length) : decodeSeq4 q i rest = .error .unknownCommand :=
  if_neg h

theorem decodeSeq4_of_length_ne {q : Seq4} {i : Instr} {rest : List Byte}
    (h : rest.take 3 = [q.s1, q.s2, q.s3].take rest.length) (hl : rest.length ≠ 3) :
    decodeSeq4 q i rest = .error .malformedFrame :=
  (if_pos h).trans (if_neg hl)

/-! ### The rows of the table by format (R101) -/

theorem row_op1 {c : Config} {op : Byte} (h : op ∈ [c.opcPowerDown, c.opcResume]) :
    ∃ i, (op, decodeOp1 i) ∈ c.decoders := by
  simp only [List.mem_cons, List.not_mem_nil, or_false] at h
  rcases h with rfl | rfl
  · exact ⟨.powerDownFrame, by simp [Config.decoders]⟩
  · exact ⟨.resumeFrame, by simp [Config.decoders]⟩

theorem row_addr {c : Config} {op : Byte}
    (h : op ∈ [c.opcPageErase, c.opcBlockErase, c.opcBufToMainErase, c.opcMainToBuf]) :
    ∃ mk, (op, decodeAddr mk) ∈ c.decoders := by
  simp only [List.mem_cons, List.not_mem_nil, or_false] at h
  rcases h with rfl | rfl | rfl | rfl
  · exact ⟨.pageEraseFrame, by simp [Config.decoders]⟩
  · exact ⟨.blockEraseFrame, by simp [Config.decoders]⟩
  · exact ⟨.bufferToMainFrame, by simp [Config.decoders]⟩
  · exact ⟨.mainToBufferFrame, by simp [Config.decoders]⟩

theorem row_prog {c : Config} {op : Byte} (h : op ∈ [c.opcProgThruBuf, c.opcBufWrite]) :
    ∃ mk, (op, decodeProg mk) ∈ c.decoders := by
  simp only [List.mem_cons, List.not_mem_nil, or_false] at h
  rcases h with rfl | rfl
  · exact ⟨.pageProgramFrame, by simp [Config.decoders]⟩
  · exact ⟨.bufferWriteFrame, by simp [Config.decoders]⟩

theorem row_read {c : Config} {op : Byte} (h : op ∈ [c.opcFastRead, c.opcBufRead]) :
    ∃ mk, (op, decodeRead mk) ∈ c.decoders := by
  simp only [List.mem_cons, List.not_mem_nil, or_false] at h
  rcases h with rfl | rfl
  · exact ⟨.fastReadFrame, by simp [Config.decoders]⟩
  · exact ⟨.bufferReadFrame, by simp [Config.decoders]⟩

theorem row_chipErase (c : Config) : (c.seqChipErase.s0, decodeSeq4 c.seqChipErase .chipEraseFrame) ∈ c.decoders := by
  simp [Config.decoders]

theorem row_pow2 (c : Config) : (c.seqPow2.s0, decodeSeq4 c.seqPow2 .pageSizePow2Frame) ∈ c.decoders := by
  simp [Config.decoders]

end Sys2Proof

namespace Sys2Proof.Machine

/-! ### What a commit answers -/

theorem commitFrame_of_decode {s : State} {i : Instr} (hp : s.cfg.devPresent = true)
    (hd : decode s.cfg s.dev.frame = .ok i) : commitFrame s = frameEffect i (clearFrame s) := by
  simp [commitFrame, hp, hd]

theorem exec_commit_unknown {s : State} (hp : s.cfg.devPresent = true)
    (hd : decode s.cfg s.dev.frame = .error .unknownCommand) :
    exec .commit s = .next (recordFault .unknownCommand s) := by
  simp [exec_commit, commitFrame, hp, hd]

theorem exec_commit_malformed {s : State} (hp : s.cfg.devPresent = true)
    (hd : decode s.cfg s.dev.frame = .error .malformedFrame) :
    exec .commit s = .next (recordFault .malformedFrame s) := by
  simp [exec_commit, commitFrame, hp, hd]

/-- R222: an empty select has no effect. -/
theorem commitFrame_empty {s : State} (hf : s.dev.frame = []) : commitFrame s = .ok s := by
  have hclear : clearFrame s = s := by
    rw [clearFrame, ← hf]
  have hd : decode s.cfg s.dev.frame = .error .emptyFrame := by rw [hf]; rfl
  simp [commitFrame, hd, hclear]

/-- Settles O3: either no row of the table is under the first byte, or a sequence's row finds it broken. -/
theorem unknownFramesFault : Obligations.UnknownFramesFault := by
  intro s op rest hp hc hf h
  refine exec_commit_unknown hp ?_
  rw [hf]
  rcases h with hop | ⟨rfl, hbroken⟩ | ⟨rfl, hbroken⟩
  · exact decode_of_notMem_firstBytes hop rest
  · exact (decode_of_mem_decoders hc (row_chipErase _) rest).trans (decodeSeq4_broken hbroken)
  · exact (decode_of_mem_decoders hc (row_pow2 _) rest).trans (decodeSeq4_broken hbroken)

/-- Settles O4: the row of the first byte reads the rest by its format, and each format rejects the length. -/
theorem malformedFramesFault : Obligations.MalformedFramesFault := by
  intro s op rest hp hc hf h
  refine exec_commit_malformed hp ?_
  rw [hf]
  rcases h with ⟨hop, hl⟩ | ⟨hop, hl⟩ | ⟨hop, hl⟩ | ⟨hop, hl⟩ | ⟨rfl, hl, hagrees⟩ | ⟨rfl, hl, hagrees⟩
  · obtain ⟨i, hrow⟩ := row_op1 hop
    exact (decode_of_mem_decoders hc hrow rest).trans (decodeOp1_of_ne_nil hl)
  · obtain ⟨mk, hrow⟩ := row_addr hop
    exact (decode_of_mem_decoders hc hrow rest).trans (decodeAddr_of_length_ne hl)
  · obtain ⟨mk, hrow⟩ := row_prog hop
    exact (decode_of_mem_decoders hc hrow rest).trans (decodeProg_of_length_lt hl)
  · obtain ⟨mk, hrow⟩ := row_read hop
    exact (decode_of_mem_decoders hc hrow rest).trans (decodeRead_of_length_lt hl)
  · exact (decode_of_mem_decoders hc (row_chipErase _) rest).trans (decodeSeq4_of_length_ne hagrees hl)
  · exact (decode_of_mem_decoders hc (row_pow2 _) rest).trans (decodeSeq4_of_length_ne hagrees hl)

/-- R222, R268: with no fault recorded, a commit answers what the decoded frame answers once the frame is taken; a fault
discards the taking as well. -/
theorem exec_commit_of_decode {s t : State} {i : Instr} (hp : s.cfg.devPresent = true) (hs : s.faults = [])
    (hd : decode s.cfg s.dev.frame = .ok i) (h : exec i (clearFrame s) = .next t) :
    exec .commit s = .next (if t.faults = [] then t else { s with faults := t.faults }) := by
  rw [exec_frame (isFrame_of_decode hd), finish_next_iff] at h
  rw [exec_commit, commitFrame_of_decode hp hd]
  rcases h with ht | ⟨f, hf, rfl⟩
  · have hfaults : t.faults = [] := by rw [(frameEffect_ok ht).1]; exact hs
    rw [ht, finish_ok, if_pos hfaults]
  · rw [hf, finish_raise, if_neg (List.ne_nil_of_mem (mem_recordFault f _))]
    simp [recordFault, hs]

theorem decode_powerDown {c : Config} (hc : c.firstBytesDistinct = true) :
    decode c [c.opcPowerDown] = .ok .powerDownFrame :=
  decode_of_mem_decoders (d := decodeOp1 .powerDownFrame) hc (by simp [Config.decoders]) []

/-- Settles O6: the decoded frame's effect, the empty select, and a committed POWER_DOWN. -/
theorem commitRunsTheDecodedFrame : Obligations.CommitRunsTheDecodedFrame := by
  refine ⟨fun s t i hp hs hd h => exec_commit_of_decode hp hs hd h, fun s hf => ?_, fun s hp hc hidle hf => ?_⟩
  · rw [exec_commit, commitFrame_empty hf, finish_ok]
  · have heffect : powerDownFrameEffect (clearFrame s) =
        .ok { s with dev := { s.dev with frame := [], power := .poweredDown } } :=
      check_bind_ok_iff.2 ⟨requireIdleDevice_ok_iff.2 hidle, rfl⟩
    rw [exec_commit, commitFrame_of_decode hp (hf ▸ decode_powerDown hc), frameEffect, heffect, finish_ok]

end Sys2Proof.Machine
end

section
/-! SUPPORT. The fourteen frames at the device, effect by effect (42 R226 to R241, R244, R247): the checks in R222's
order, then what each accepted frame writes. -/

namespace Sys2Proof.Machine

/-! ### Answers of a frame -/

/-- A body goes on from a part that runs through. -/
theorem bind_of_ok {α β : Type} {x : Act α} {k : α → Act β} {a : α} (h : x = .ok a) : (x >>= k) = k a := by
  rw [h, bind_ok]

/-- A body ends in its first part's trouble. -/
theorem bind_of_error {α β : Type} {x : Act α} {k : α → Act β} {e : Trouble} (h : x = .error e) :
    (x >>= k) = .error e := by
  rw [h, bind_error]

theorem exec_frame_of_ok {i : Instr} {s t : State} (hi : i.isFrame = true) (h : frameEffect i s = .ok t) :
    exec i s = .next t := by
  rw [exec_frame hi, h, finish_ok]

theorem exec_frame_of_raise {i : Instr} {s : State} {f : FaultName} (hi : i.isFrame = true)
    (h : frameEffect i s = .error (.raise f)) : exec i s = .next (recordFault f s) := by
  rw [exec_frame hi, h, finish_raise]

/-! ### The shared checks -/

section
variable {s : State} {off : Offset} {i : Instr} {e : Trouble}

theorem requireIdleDevice_of (h : DeviceIdle s) : requireIdleDevice s = .ok () := requireIdleDevice_ok_iff.2 h

theorem requireActive_poweredDown (h : s.dev.power = .poweredDown) :
    requireActive s = .error (.raise .devicePoweredDownCommand) := require_of_not (by simp [h])

theorem requireReady_busy (h : s.dev.busy = true) : requireReady s = .error (.raise .deviceBusyCommand) :=
  require_of_not (by simp [h])

/-- R227: the power-down rule comes first. -/
theorem requireIdleDevice_poweredDown (h : s.dev.power = .poweredDown) :
    requireIdleDevice s = .error (.raise .devicePoweredDownCommand) := bind_of_error (requireActive_poweredDown h)

/-- R226. -/
theorem requireIdleDevice_busy (hp : s.dev.power = .active) (hb : s.dev.busy = true) :
    requireIdleDevice s = .error (.raise .deviceBusyCommand) :=
  (bind_of_ok (require_of hp)).trans (requireReady_busy hb)

theorem requirePow2_legacy (h : s.dev.format = .legacy) : requirePow2 s = .error (.raise .legacyAddressing) :=
  require_of_not (by simp [h])

theorem requireAdmitted_of_not (h : s.cfg.admitBufferCmds = false) :
    requireAdmitted s = .error (.raise .unmodelledCommand) := require_of_not (by simp [h])

theorem requirePageFrame_of (h : PageFrameTaken off s) : requirePageFrame off s = .ok () :=
  requirePageFrame_ok_iff.2 h

theorem requirePageFrame_of_notIdle (h : requireIdleDevice s = .error e) : requirePageFrame off s = .error e :=
  bind_of_error h

/-- R244. -/
theorem requirePageFrame_legacy (hidle : DeviceIdle s) (h : s.dev.format = .legacy) :
    requirePageFrame off s = .error (.raise .legacyAddressing) :=
  (bind_of_ok (requireIdleDevice_of hidle)).trans (bind_of_error (requirePow2_legacy h))

/-- R247. -/
theorem requirePageFrame_outside (hidle : DeviceIdle s) (hpow2 : s.dev.format = .pow2)
    (h : deviceCap s ≤ off.toNat) : requirePageFrame off s = .error (.raise .addressOutOfRange) :=
  (bind_of_ok (requireIdleDevice_of hidle)).trans
    ((bind_of_ok (require_of hpow2)).trans (require_of_not (Nat.not_lt.2 h)))

/-- The five page-addressed frames make the same checks first (R222). -/
theorem exec_of_pageCheck {l : List Byte} {f : FaultName}
    (hi : i ∈ [.pageProgramFrame off l, .pageEraseFrame off, .blockEraseFrame off, .bufferToMainFrame off,
      .mainToBufferFrame off]) (h : requirePageFrame off s = .error (.raise f)) :
    exec i s = .next (recordFault f s) := by
  simp only [List.mem_cons, List.not_mem_nil, or_false] at hi
  rcases hi with rfl | rfl | rfl | rfl | rfl <;> exact exec_frame_of_raise rfl (bind_of_error h)

/-- A frame that reads the array or uses the page buffer goes on from the layout check (R226, R227, R244). -/
theorem idle_pow2_ok {k : Unit → Act State} (hidle : DeviceIdle s) (hpow2 : s.dev.format = .pow2) :
    (requireIdleDevice s >>= fun _ => requirePow2 s >>= k) = k () :=
  (bind_of_ok (requireIdleDevice_of hidle)).trans (bind_of_ok (require_of hpow2))

/-- R244 for those frames. -/
theorem idle_legacy_error {k : Unit → Act State} (hidle : DeviceIdle s) (h : s.dev.format = .legacy) :
    (requireIdleDevice s >>= fun _ => requirePow2 s >>= k) = .error (.raise .legacyAddressing) :=
  (bind_of_ok (requireIdleDevice_of hidle)).trans (bind_of_error (requirePow2_legacy h))

/-- Every frame but READ_STATUS and RESUME begins with the power and busy checks (R222). -/
theorem frameEffect_of_notIdle (hi : i.isFrame = true) (hresume : i ≠ .resumeFrame)
    (hstatus : ∀ n, i ≠ .readStatusFrame n) (h : requireIdleDevice s = .error e) : frameEffect i s = .error e := by
  cases i
  case pageProgramFrame | pageEraseFrame | blockEraseFrame | bufferToMainFrame | mainToBufferFrame =>
    exact bind_of_error (requirePageFrame_of_notIdle h)
  case identifyFrame | fastReadFrame | chipEraseFrame | bufferWriteFrame | bufferReadFrame | powerDownFrame |
      pageSizePow2Frame => exact bind_of_error h
  case readStatusFrame n => exact absurd rfl (hstatus n)
  case resumeFrame => exact absurd rfl hresume
  all_goals cases hi

/-- R227. -/
theorem exec_frame_poweredDown (hi : i.isFrame = true) (hresume : i ≠ .resumeFrame)
    (hp : s.dev.power = .poweredDown) : exec i s = .next (recordFault .devicePoweredDownCommand s) := by
  refine exec_frame_of_raise hi ?_
  by_cases hstatus : ∀ n, i ≠ .readStatusFrame n
  · exact frameEffect_of_notIdle hi hresume hstatus (requireIdleDevice_poweredDown hp)
  · obtain ⟨n, hn⟩ := not_forall_not.1 hstatus
    subst hn
    exact bind_of_error (requireActive_poweredDown hp)

/-- R226. -/
theorem exec_frame_busy (hi : i.isFrame = true) (hstatus : ∀ n, i ≠ .readStatusFrame n)
    (hp : i = .resumeFrame ∨ s.dev.power = .active) (hb : s.dev.busy = true) :
    exec i s = .next (recordFault .deviceBusyCommand s) := by
  refine exec_frame_of_raise hi ?_
  by_cases hresume : i = .resumeFrame
  · subst hresume
    exact bind_of_error (requireReady_busy hb)
  · exact frameEffect_of_notIdle hi hresume hstatus (requireIdleDevice_busy (hp.resolve_left hresume) hb)

end

/-- Settles O38: R227, then R226, each the first check of every frame it is about. -/
theorem powerAndBusyRulesOfTheDevice : Obligations.PowerAndBusyRulesOfTheDevice :=
  fun _ _ hi => ⟨fun hresume hp => exec_frame_poweredDown hi hresume hp,
    fun hstatus hp hb => exec_frame_busy hi hstatus hp hb⟩

/-- Settles O39: R244 for the eight addressed frames, R247 for the five page-addressed ones, and the two reads. -/
theorem addressRulesOfTheDevice : Obligations.AddressRulesOfTheDevice := by
  intro s off n l hidle
  refine ⟨fun hlegacy i hi => ?_, fun hpow2 hcap i hi => ?_, fun hpow2 hwrap hend => ?_, fun hpow2 hadmit => ?_⟩
  · have hkind : i ∈ [.pageProgramFrame off l, .pageEraseFrame off, .blockEraseFrame off, .bufferToMainFrame off,
        .mainToBufferFrame off] ∨ i ∈ [.fastReadFrame off n, .bufferWriteFrame off l, .bufferReadFrame off n] := by
      simp only [List.mem_cons, List.not_mem_nil, or_false] at hi ⊢
      tauto
    rcases hkind with hi | hi
    · exact exec_of_pageCheck hi (requirePageFrame_legacy hidle hlegacy)
    · simp only [List.mem_cons, List.not_mem_nil, or_false] at hi
      rcases hi with rfl | rfl | rfl <;> exact exec_frame_of_raise rfl (idle_legacy_error hidle hlegacy)
  · exact exec_of_pageCheck hi (requirePageFrame_outside hidle hpow2 hcap)
  · have hrange : requireReadRange off n s = .error (.raise .readOutOfRange) :=
      require_of_not (by simp [hwrap, hend])
    exact exec_frame_of_raise rfl ((idle_pow2_ok hidle hpow2).trans (bind_of_error hrange))
  · exact exec_frame_of_raise rfl
      ((idle_pow2_ok hidle hpow2).trans (bind_of_error (requireAdmitted_of_not hadmit)))

/-- Settles O30: each of the four frames is checks alone. -/
theorem readingFramesHaveNoEffect : Obligations.ReadingFramesHaveNoEffect := by
  intro s off n
  refine ⟨fun hidle => ?_, fun hp => ?_, fun hidle hpow2 hrange => ?_, fun hidle hpow2 hadmit => ?_⟩
  · exact exec_frame_of_ok rfl (bind_of_ok (requireIdleDevice_of hidle))
  · exact exec_frame_of_ok rfl (bind_of_ok (require_of hp))
  · exact exec_frame_of_ok rfl ((idle_pow2_ok hidle hpow2).trans (bind_of_ok (require_of hrange)))
  · exact exec_frame_of_ok rfl ((idle_pow2_ok hidle hpow2).trans (bind_of_ok (require_of hadmit)))

/-- Settles O33: the erased array reads 0xFF everywhere. -/
theorem chipEraseErasesEveryByte : Obligations.ChipEraseErasesEveryByte := fun _ hidle =>
  ⟨Memory.allErased, exec_frame_of_ok rfl (bind_of_ok (requireIdleDevice_of hidle)), Memory.read_allErased⟩

/-- R240: RESUME makes a ready device active. -/
theorem exec_resumeFrame {s : State} (h : s.dev.busy = false) :
    exec .resumeFrame s = .next { s with dev := { s.dev with power := .active } } :=
  exec_frame_of_ok rfl (bind_of_ok (require_of h))

/-- Settles O37: each frame's effect on a device that takes it, and the general power and busy rules. -/
theorem powerAndLayoutFrames : Obligations.PowerAndLayoutFrames := by
  intro s
  refine ⟨fun hidle => ?_, exec_resumeFrame, fun hb hp => ?_, fun hidle => ?_, fun hb => ?_, fun i hi => ?_⟩
  · exact exec_frame_of_ok rfl (bind_of_ok (requireIdleDevice_of hidle))
  · rw [exec_resumeFrame hb, ← hp]
  · exact exec_frame_of_ok rfl (bind_of_ok (requireIdleDevice_of hidle))
  · exact exec_frame_busy rfl (by simp) (.inl rfl) hb
  · simp only [List.mem_cons, List.not_mem_nil, or_false] at hi
    rcases hi with rfl | rfl <;>
      exact ⟨exec_frame_poweredDown rfl (by simp), fun hp hb => exec_frame_busy rfl (by simp) (.inr hp) hb⟩

/-! ### What the storing frames write -/

/-- A byte written is read back. -/
theorem Memory.read_writeBytes_inside {m : Memory} {a j : Nat} {l : List Byte} {b : Byte} (h : l[j]? = some b) :
    (m.writeBytes a l).read (a + j) = b := by
  simp [Memory.read_writeBytes, h]

/-- A write of consecutive bytes leaves every other byte. -/
theorem Memory.read_writeBytes_outside {m : Memory} {a x : Nat} {l : List Byte} (h : x < a ∨ a + l.length ≤ x) :
    (m.writeBytes a l).read x = m.read x := by
  rw [Memory.read_writeBytes]
  split
  · rw [List.getElem?_eq_none (by omega)]
    rfl
  · rfl

theorem Memory.read_eraseRange_inside {m : Memory} {a n x : Nat} (h : a ≤ x) (hx : x < a + n) :
    (m.eraseRange a n).read x = 0xFF := by
  rw [Memory.read_eraseRange, if_pos ⟨h, hx⟩]

theorem Memory.read_eraseRange_outside {m : Memory} {a n x : Nat} (h : x < a ∨ a + n ≤ x) :
    (m.eraseRange a n).read x = m.read x := by
  rw [Memory.read_eraseRange, if_neg (by omega)]

/-- R231 under `Overwrite`: the payload itself. -/
theorem programmedBytes_overwrite {c : Config} (h : c.programSemantics = .overwrite) (old payload : List Byte) :
    programmedBytes c old payload = payload := by
  simp [programmedBytes, h]

/-- R231 under `AndWithExisting`: byte by byte, the old one and the payload's. -/
theorem programmedBytes_and {c : Config} {old payload : List Byte} {j : Nat} {o b : Byte}
    (h : c.programSemantics = .andWithExisting) (ho : old[j]? = some o) (hb : payload[j]? = some b) :
    (programmedBytes c old payload)[j]? = some (o &&& b) := by
  simp [programmedBytes, h, List.getElem?_zipWith, ho, hb]

/-- Settles O31: the bytes written, by the programming semantics, and the two checks that follow the address's. -/
theorem pageProgramWritesThePage : Obligations.PageProgramWritesThePage := by
  intro s off payload h
  refine ⟨fun ha hl => ⟨_, exec_pageProgramFrame h ha hl, fun j b hb => ?_, fun a hout => ?_⟩, fun hbad => ?_⟩
  · cases hsem : s.cfg.programSemantics with
    | overwrite => exact Memory.read_writeBytes_inside (by rw [programmedBytes_overwrite hsem, hb])
    | andWithExisting =>
      have hj : j < devicePage s := hl ▸ (List.getElem?_eq_some_iff.1 hb).1
      exact Memory.read_writeBytes_inside (programmedBytes_and hsem (Memory.readBytes_getElem? _ _ _ _ hj) hb)
  · refine Memory.read_writeBytes_outside ?_
    rwa [programmedBytes_length (by rw [Memory.readBytes_length, hl]), hl]
  · refine exec_frame_of_raise rfl ((bind_of_ok (requirePageFrame_of h)).trans ?_)
    by_cases ha : off.toNat % devicePage s = 0
    · have hl : payload.length ≠ devicePage s := hbad.resolve_left (not_not_intro ha)
      exact (bind_of_ok (require_of ha)).trans (bind_of_error (require_of_not hl))
    · exact bind_of_error (require_of_not ha)

/-- Settles O32: the erased range is the page. -/
theorem pageEraseErasesThePage : Obligations.PageEraseErasesThePage := by
  intro s off h
  refine ⟨fun ha => ⟨s.dev.array.eraseRange off.toNat (devicePage s), ?_, fun a hlo hhi => ?_, fun a hout => ?_⟩,
    fun ha => ?_⟩
  · exact exec_frame_of_ok rfl ((bind_of_ok (requirePageFrame_of h)).trans (bind_of_ok (require_of ha)))
  · exact Memory.read_eraseRange_inside hlo hhi
  · exact Memory.read_eraseRange_outside hout
  · exact exec_frame_of_raise rfl
      ((bind_of_ok (requirePageFrame_of h)).trans (bind_of_error (require_of_not ha)))

/-- R234, R237, R238: of the frames that need `ADMIT_BUFFER_CMDS` and an aligned offset, one that lacks either ends at
that check. -/
theorem admitted_aligned_error {s : State} {off : Offset} {unit : Nat} {k : Unit → Act State}
    (h : PageFrameTaken off s) (hbad : s.cfg.admitBufferCmds = false ∨ off.toNat % unit ≠ 0) :
    (requirePageFrame off s >>= fun _ => requireAdmitted s >>= fun _ => requireAligned unit off >>= k) =
      .error (.raise .unmodelledCommand) := by
  refine (bind_of_ok (requirePageFrame_of h)).trans ?_
  cases hadmit : s.cfg.admitBufferCmds with
  | false => exact bind_of_error (requireAdmitted_of_not hadmit)
  | true =>
    have ha : off.toNat % unit ≠ 0 := hbad.resolve_left (by simp [hadmit])
    exact (bind_of_ok (require_of hadmit)).trans (bind_of_error (require_of_not ha))

/-- The same checks where both hold. -/
theorem admitted_aligned_ok {s : State} {off : Offset} {unit : Nat} {k : Unit → Act State}
    (h : PageFrameTaken off s) (hadmit : s.cfg.admitBufferCmds = true) (ha : off.toNat % unit = 0) :
    (requirePageFrame off s >>= fun _ => requireAdmitted s >>= fun _ => requireAligned unit off >>= k) = k () :=
  (bind_of_ok (requirePageFrame_of h)).trans ((bind_of_ok (require_of hadmit)).trans (bind_of_ok (require_of ha)))

/-- Settles O34: the erased range is the block as far as the array goes, and all of it where blocks are whole. -/
theorem blockEraseErasesEightPages : Obligations.BlockEraseErasesEightPages := by
  intro s off h
  have hin := h.2.2
  have hbytes : blockBytes off s = min (8 * devicePage s) (deviceCap s - off.toNat) := rfl
  refine ⟨fun hadmit ha => ⟨s.dev.array.eraseRange off.toNat (blockBytes off s), ?_, fun a hlo hhi hcap => ?_,
    fun a hout => ?_⟩, fun _ ha hc => ?_, fun hbad => ?_⟩
  · exact exec_frame_of_ok rfl (admitted_aligned_ok h hadmit ha)
  · exact Memory.read_eraseRange_inside hlo (by omega)
  · exact Memory.read_eraseRange_outside (by omega)
  · have hend := blockBytes_in_array hin
    rwa [blockBytes_of_whole hin ha hc] at hend
  · exact exec_frame_of_raise rfl (admitted_aligned_error h hbad)

/-- Settles O36: the page takes the page buffer's bytes, or the page buffer the page's. -/
theorem pageBufferTransfers : Obligations.PageBufferTransfers := by
  intro s off h
  refine ⟨fun hadmit ha hl => ⟨⟨s.dev.array.writeBytes off.toNat s.dev.pagebuf, ?_, fun j b hb => ?_,
    fun a hout => ?_⟩, ⟨s.dev.array.readBytes off.toNat (devicePage s), ?_, ?_, fun j hj => ?_⟩⟩, fun hbad => ⟨?_, ?_⟩⟩
  · exact exec_frame_of_ok rfl (admitted_aligned_ok h hadmit ha)
  · exact Memory.read_writeBytes_inside hb
  · exact Memory.read_writeBytes_outside (by rwa [hl])
  · exact exec_frame_of_ok rfl (admitted_aligned_ok h hadmit ha)
  · exact Memory.readBytes_length ..
  · exact Memory.readBytes_getElem? _ _ _ _ hj
  · exact exec_frame_of_raise rfl (admitted_aligned_error h hbad)
  · exact exec_frame_of_raise rfl (admitted_aligned_error h hbad)

/-! ### The page buffer (R235) -/

/-- The entry of byte `k + 1` from `b0` is that of byte `k` from `b0 + 1`. -/
theorem entry_succ (p b0 k : Nat) : (b0 + (k + 1)) % p = (b0 + 1 + k) % p := by
  rw [Nat.add_assoc, Nat.add_comm 1 k]

/-- The entry that no byte of `l` goes to keeps its value. -/
theorem writePageBuf_untouched {p b0 i : Nat} {buf l : List Byte} (h : ∀ j, j < l.length → (b0 + j) % p ≠ i) :
    (writePageBuf p b0 buf l)[i]? = buf[i]? := by
  induction l generalizing b0 buf with
  | nil => rfl
  | cons b rest ih =>
    have hfirst : b0 % p ≠ i := h 0 (Nat.succ_pos _)
    have hrest : ∀ j, j < rest.length → (b0 + 1 + j) % p ≠ i := fun j hj =>
      entry_succ p b0 j ▸ h (j + 1) (Nat.succ_lt_succ hj)
    rw [writePageBuf, ih hrest, List.getElem?_set_ne hfirst]

/-- Byte `j` of `l` stands at its entry, unless a later byte goes there. -/
theorem writePageBuf_last {p b0 j : Nat} {buf l : List Byte} {b : Byte} (hj : l[j]? = some b)
    (hlater : ∀ k, j < k → k < l.length → (b0 + k) % p ≠ (b0 + j) % p) (hin : (b0 + j) % p < buf.length) :
    (writePageBuf p b0 buf l)[(b0 + j) % p]? = some b := by
  induction l generalizing b0 buf j with
  | nil => cases hj
  | cons c rest ih =>
    rw [writePageBuf]
    cases j with
    | zero =>
      cases hj
      have hrest : ∀ k, k < rest.length → (b0 + 1 + k) % p ≠ (b0 + 0) % p := fun k hk =>
        entry_succ p b0 k ▸ hlater (k + 1) (Nat.succ_pos k) (Nat.succ_lt_succ hk)
      exact (writePageBuf_untouched hrest).trans (List.getElem?_set_self hin)
    | succ j =>
      rw [entry_succ] at hin hlater ⊢
      refine ih hj (fun k hjk hk => ?_) (by rwa [List.length_set])
      exact entry_succ p b0 k ▸ hlater (k + 1) (Nat.succ_lt_succ hjk) (Nat.succ_lt_succ hk)

theorem devicePage_pos (s : State) : 0 < devicePage s := Nat.two_pow_pos _

/-- Settles O35: of the bytes that go to one entry the last stays, and an entry to which none goes is kept. -/
theorem bufferWriteFillsThePageBuffer : Obligations.BufferWriteFillsThePageBuffer := by
  intro s off l hidle hpow2
  refine ⟨fun hadmit hl => ⟨writePageBuf (devicePage s) (off.toNat % devicePage s) s.dev.pagebuf l, ?_, ?_,
    fun j b hj hlater => ?_, fun i hnone => ?_⟩, fun hadmit => ?_⟩
  · exact exec_frame_of_ok rfl ((idle_pow2_ok hidle hpow2).trans (bind_of_ok (require_of hadmit)))
  · rw [writePageBuf_length, hl]
  · exact writePageBuf_last hj hlater (by rw [hl]; exact Nat.mod_lt _ (devicePage_pos s))
  · exact writePageBuf_untouched hnone
  · exact exec_frame_of_raise rfl
      ((idle_pow2_ok hidle hpow2).trans (bind_of_error (requireAdmitted_of_not hadmit)))

end Sys2Proof.Machine
end

section
/-! SUPPORT. The device agent's own steps (42 R220, R225) and the byte it drives (R221, R224). -/

namespace Sys2Proof.Machine

/-! ### DEVICE_EXCHANGE and DEVICE_COMPLETE -/

theorem exec_deviceExchange (b : Byte) (s : State) : exec (.deviceExchange b) s =
    .next { (exchange b s).2 with bus := { (exchange b s).2.bus with rx := (exchange b s).1 } } := rfl

/-- Settles O26: the exchange at either level of chip select. -/
theorem deviceExchangeAppendsTheByte : Obligations.DeviceExchangeAppendsTheByte := by
  intro s b
  rw [exec_deviceExchange]
  exact ⟨fun h => by rw [exchange_low h], fun h => by rw [exchange_high h]⟩

theorem exec_deviceComplete (s : State) : exec .deviceComplete s = finish s (deviceCompleteStep s) := rfl

/-- Settles O29: the step is its enabling check, then the one write. -/
theorem deviceCompleteClearsBusy : Obligations.DeviceCompleteClearsBusy := by
  intro s
  rw [exec_deviceComplete, deviceCompleteStep]
  refine ⟨fun h => ?_, fun h => ?_⟩
  · rw [require_of h]
    rfl
  · rw [require_of_not (by simp [h])]
    rfl

/-! ### The status byte (R224) -/

theorem getLsbD_setBit_same (b : Byte) (i : Fin 8) (v : Bool) : (setBit b i v).getLsbD i.val = v := by
  cases v <;> simp [setBit]

theorem getLsbD_setBit_of_ne {i j : Fin 8} (h : j ≠ i) (b : Byte) (v : Bool) :
    (setBit b i v).getLsbD j.val = b.getLsbD j.val := by
  have hval : j.val ≠ i.val := fun heq => h (Fin.ext heq)
  cases v <;> simp [setBit, hval]

/-- R224: the ready bit, set last. -/
theorem statusByte_readyBit (c : Config) (d : Device) (free : Byte) :
    (statusByte c d free).getLsbD c.readyBit.val = if d.busy then !c.readyWhen else c.readyWhen :=
  getLsbD_setBit_same ..

/-- R224: the page-size bit, which setting the ready bit leaves. -/
theorem statusByte_pagesizeBit {c : Config} (h : c.readyBit ≠ c.pagesizeBit) (d : Device) (free : Byte) :
    (statusByte c d free).getLsbD c.pagesizeBit.val = if d.format = .pow2 then c.pow2When else !c.pow2When :=
  (getLsbD_setBit_of_ne (Ne.symm h) ..).trans (getLsbD_setBit_same ..)

/-- Settles O28: the bits of a byte with two bits set, and the comparisons of R174 with them. -/
theorem statusByteReportsTheDevice : Obligations.StatusByteReportsTheDevice := by
  intro c d free h
  refine ⟨statusByte_readyBit c d free, statusByte_pagesizeBit h d free, fun i hr hp => ?_, ?_, ?_⟩
  · exact (getLsbD_setBit_of_ne hr ..).trans (getLsbD_setBit_of_ne hp ..)
  · rw [isReady, statusByte_readyBit]
    cases d.busy <;> simp
  · rw [isPow2, statusByte_pagesizeBit h]
    cases d.format <;> simp

/-! ### The byte driven (R221) -/

section
variable {s : State} {free op : Byte} {rest : List Byte}

theorem deviceOutput_poweredDown (h : s.dev.power = .poweredDown) : deviceOutput s free = free := by
  simp [deviceOutput, h]

theorem deviceOutput_first (h : s.dev.frame = []) : deviceOutput s free = free := by
  simp [deviceOutput, h]

/-- R228: exchange `k` returns `DEV_ID[k-1]`. -/
theorem deviceOutput_identify (hp : s.dev.power = .active) (hf : s.dev.frame = s.cfg.opcIdentify :: rest) :
    deviceOutput s free = (s.cfg.devId[rest.length]?).getD free := by
  simp [deviceOutput, identifyOutput, hp, hf]

/-- R229. -/
theorem deviceOutput_status (hp : s.dev.power = .active) (hf : s.dev.frame = s.cfg.opcStatus :: rest)
    (hne : s.cfg.opcStatus ≠ s.cfg.opcIdentify) : deviceOutput s free = statusByte s.cfg s.dev free := by
  simp [deviceOutput, readStatusOutput, hp, hf, hne]

/-- R221: before exchange 5 a frame of any other kind is answered by free bytes. -/
theorem deviceOutput_head (hf : s.dev.frame = op :: rest) (hi : op ≠ s.cfg.opcIdentify) (hs : op ≠ s.cfg.opcStatus)
    (hl : rest.length < 4) : deviceOutput s free = free := by
  simp only [deviceOutput, hf, if_neg hi, if_neg hs]
  split
  · rfl
  · split
    · simp only [List.length_cons] at hl
      omega
    · rfl

/-- R221: frames that are no reading frame are answered by free bytes. -/
theorem deviceOutput_other (hf : s.dev.frame = op :: rest) (hi : op ≠ s.cfg.opcIdentify) (hs : op ≠ s.cfg.opcStatus)
    (hr : op ≠ s.cfg.opcFastRead) (hb : op ≠ s.cfg.opcBufRead) : deviceOutput s free = free := by
  simp only [deviceOutput, hf, if_neg hi, if_neg hs, if_neg hr, if_neg hb]
  split
  · rfl
  · split <;> rfl

end

section
variable {s : State} {free x y z d : Byte} {more : List Byte}

/-- R230: what FAST_READ is answered once its dummy byte is in. -/
theorem deviceOutput_fastRead_from (hc : s.cfg.firstBytesDistinct = true) (hp : s.dev.power = .active)
    (hf : s.dev.frame = s.cfg.opcFastRead :: x :: y :: z :: d :: more) :
    deviceOutput s free = fastReadOutput s (offsetOf x y z) s.dev.frame.length free := by
  obtain ⟨hi, hs⟩ := opcFastRead_ne hc
  simp [deviceOutput, hp, hf, hi, hs]

/-- R120: of the reading frames' first bytes, the status read's and the buffer read's differ from those that
`deviceOutput` asks for before them. -/
theorem opcStatus_ne_and_opcBufRead_ne {c : Config} (h : c.firstBytesDistinct = true) :
    c.opcStatus ≠ c.opcIdentify ∧
    c.opcBufRead ≠ c.opcIdentify ∧ c.opcBufRead ≠ c.opcStatus ∧ c.opcBufRead ≠ c.opcFastRead := by
  simp only [Config.firstBytesDistinct, Config.firstBytes, allDistinct, Bool.and_eq_true, Bool.not_eq_true',
    List.contains_eq_mem, decide_eq_false_iff_not, List.mem_cons, not_or] at h
  obtain ⟨⟨his, -, -, -, -, -, hi, -⟩, ⟨-, -, -, -, -, hs, -⟩, ⟨-, -, -, -, hr, -⟩, -⟩ := h
  exact ⟨Ne.symm his, Ne.symm hi, Ne.symm hs, Ne.symm hr⟩

/-- R236: what BUFFER_READ is answered once its dummy byte is in. -/
theorem deviceOutput_bufferRead_from (hc : s.cfg.firstBytesDistinct = true) (hp : s.dev.power = .active)
    (hf : s.dev.frame = s.cfg.opcBufRead :: x :: y :: z :: d :: more) :
    deviceOutput s free = bufferReadOutput s (offsetOf x y z) s.dev.frame.length free := by
  obtain ⟨-, hi, hs, hr⟩ := opcStatus_ne_and_opcBufRead_ne hc
  simp [deviceOutput, hp, hf, hi, hs, hr]

/-- The response byte asked for after `more` (R221): exchanges are counted from the opcode, responses from the fifth. -/
theorem response_index {op : Byte} (hf : s.dev.frame = op :: x :: y :: z :: d :: more) :
    s.dev.frame.length - 5 = more.length := by
  simp [hf]

end

/-- Settles O27: one lemma for each kind of frame. -/
theorem deviceOutputByFrameKind : Obligations.DeviceOutputByFrameKind := by
  intro s free op rest hc
  refine ⟨deviceOutput_poweredDown, deviceOutput_first, fun hp hf => ⟨?_, ?_, fun hop hl => ?_, fun hop => ?_, ?_, ?_⟩⟩
  · rintro rfl
    exact deviceOutput_identify hp hf
  · rintro rfl
    exact deviceOutput_status hp hf (opcStatus_ne_and_opcBufRead_ne hc).1
  · simp only [List.mem_cons, List.not_mem_nil, or_false, not_or] at hop
    obtain ⟨hi, hs⟩ := hop
    exact deviceOutput_head hf hi hs hl
  · simp only [List.mem_cons, List.not_mem_nil, or_false, not_or] at hop
    obtain ⟨hi, hs, hr, hb⟩ := hop
    exact deviceOutput_other hf hi hs hr hb
  · rintro a b c d more rfl rfl
    rw [deviceOutput_fastRead_from hc hp hf, fastReadOutput, response_index hf]
  · rintro a b c d more rfl rfl
    rw [deviceOutput_bufferRead_from hc hp hf, bufferReadOutput, response_index hf]

end Sys2Proof.Machine
end

section
/-! SUPPORT. The record of faults (60 R268): a body that runs through leaves it, so a step changes it only by raising a
fault, and then changes nothing else. -/

namespace Sys2Proof.Machine

/-! ### A body that runs through leaves the record -/

theorem HardwareOnly.faults {s t : State} (h : HardwareOnly s t) : t.faults = s.faults := by rw [h]

theorem ControlOnly.faults {s t : State} (h : ControlOnly s t) : t.faults = s.faults := by rw [h]

theorem deselectDevice_faults {s t : State} (h : deselectDevice s = .ok t) : t.faults = s.faults := by
  rw [deselectDevice_eq h]

theorem TransferStep.faults {s t : State} (h : TransferStep s t) : t.faults = s.faults := by
  cases h with
  | rest => rfl
  | fill frame => exact fillTx_faults frame s
  | select => exact selectDevice_faults s
  | write h => exact (hardwareOnly_teWriteCall h).faults
  | read h => exact (hardwareOnly_teReadCall h).faults
  | deselect h => exact deselectDevice_faults h

theorem OpEffect.faults {i : Instr} {n : Nat} {s t : State} (h : OpEffect i n s t) : t.faults = s.faults := by
  cases h with
  | control | identified => rfl
  | issueWrite _ h | issueRead _ h => exact h.faults
  | deselect _ _ h => exact deselectDevice_faults h

/-! ### What a step does to the record -/

/-- `t` is `s` with one new fault recorded and nothing else written. -/
def NewFaultOnly (s t : State) : Prop := ∃ f, f ∉ s.faults ∧ t = { s with faults := s.faults ++ [f] }

theorem NewFaultOnly.mem {s t : State} {f : FaultName} (h : NewFaultOnly s t) (hf : f ∈ s.faults) :
    f ∈ t.faults := by
  obtain ⟨g, -, rfl⟩ := h
  exact List.mem_append_left [g] hf

/-- A raised fault is new or already recorded; a recorded one is not recorded twice. -/
theorem recordFault_cases (f : FaultName) (s : State) : recordFault f s = s ∨ NewFaultOnly s (recordFault f s) := by
  by_cases hf : f ∈ s.faults
  · exact .inl (if_pos hf)
  · exact .inr ⟨f, hf, if_neg hf⟩

/-- R268: an instruction leaves the record of faults, or it adds one fault to it and does nothing else. -/
theorem exec_faults {i : Instr} {s t : State} (h : exec i s = .next t) : t.faults = s.faults ∨ NewFaultOnly s t := by
  rcases exec_next h with ⟨f, rfl⟩ | ⟨n, u, -, hu, ht⟩ | ⟨-, ht⟩
  · exact (recordFault_cases f s).imp_left fun hs => by rw [hs]
  · obtain ⟨v, hv, hc⟩ := opStep_ok ht
    exact .inl (by rw [hc.faults, hv.faults, (controlOnly_atStep hu).faults])
  · exact .inl (hardwareOnly_hardwareStep ht).faults

/-- R268: only a machine with no fault recorded has a step. -/
theorem noFault_of_step_next {s t : State} (h : step s = .next t) : s.faults = [] := by
  unfold step at h
  split at h
  case isFalse => cases h
  split at h
  case h_1 => cases h
  case h_2 hs => exact hs

theorem RunEnded.noFault {s : State} (h : RunEnded s) : s.faults = [] := by
  obtain ⟨-, -, -, -, -, -, -, -, -, hs⟩ := h
  exact hs

/-- Settles O9: a step leaves the record or adds to it alone; a next state and the end of a run need an empty one. -/
theorem faultsArePreciseAndSticky : Obligations.FaultsArePreciseAndSticky := by
  refine ⟨fun i s t h hne => ?_, fun i s t f h hf => ?_, fun s t hs h => ?_, fun s hs h => ?_⟩
  · exact (exec_faults h).resolve_left hne
  · rcases exec_faults h with he | hn
    · rwa [he]
    · exact hn.mem hf
  · exact hs (noFault_of_step_next h)
  · exact hs h.noFault

end Sys2Proof.Machine
end

section
/-! SUPPORT. The host's two moves (70 R320, R321): a start, which takes the next call of its list where the host may
make one, and a power cycle, which takes the block to P-reset (R322) and the device where R245 says. -/

namespace Sys2Proof.Machine

/-! ### A listed move -/

/-- A step carries out the first listed move in the state without it. -/
theorem step_of_env {s : State} {m : Move} {rest : List Move} (hc : s.cfg.firstBytesDistinct = true)
    (hf : s.faults = []) (he : s.env = m :: rest) : step s = takeMove m { s with env := rest } := by
  simp [step, hc, hf, nextMove, consumeMove, he]

/-! ### The start of a call -/

theorem hostStart_of_nextCall {s : State} {op : Instr} (h : nextCall s = some op) :
    hostStart s = startOp op { s with calls := s.calls.tail } := by
  simp [hostStart, h]

theorem hostStart_of_noNextCall {s : State} (h : nextCall s = none) : hostStart s = s := by
  simp [hostStart, h]

/-- The host may start no call where none is left, the foreground sleeps, an operation runs, or the last one failed. -/
theorem nextCall_eq_none {s : State}
    (h : s.calls = [] ∨ s.fg = .asleep ∨ s.fcl.pc ≠ none ∨ ∃ e, s.fcl.result = some (.err e)) : nextCall s = none := by
  refine Option.eq_none_iff_forall_ne_some.2 fun op hop => ?_
  obtain ⟨⟨rest, hcalls⟩, hrun, hpc, hres, -⟩ := nextCall_eq_some_iff.1 hop
  rcases h with h | h | h | ⟨e, h⟩
  · simp [hcalls] at h
  · simp [hrun] at h
  · exact h hpc
  · exact hres e h

/-- A next state without a recorded fault is the end of a body that ran through, whatever the state before it. -/
theorem finish_next_iff_of_noFault {s t : State} {r : Act State} (ht : t.faults = []) :
    finish s r = .next t ↔ r = .ok t := by
  refine finish_next_iff.trans (or_iff_left ?_)
  rintro ⟨f, -, rfl⟩
  simpa [ht] using mem_recordFault f s

theorem exec_at_rest {i : Instr} {s : State} (hi : i.isFclOp = true) (hr : s.fg = .running) (hp : s.fcl.pc = none) :
    exec i s = finish s (opStep i 1 (startOp i s)) := by
  rw [exec_of_isFclOp hi, runOp, atStep_start hr hp, bind_ok]

theorem exec_startOp {i : Instr} {s : State} (hi : i.isFclOp = true) (hr : s.fg = .running) :
    exec i (startOp i s) = finish (startOp i s) (opStep i 1 (startOp i s)) :=
  exec_atOp ⟨hr, rfl, rfl⟩ hi

/-- Settles O7: whether the host may start its next call, and step 1 run in the started state either way. -/
theorem hostStartsAnOperation : Obligations.HostStartsAnOperation := by
  refine ⟨fun s op calls rest hc hf he hcalls hrun hpc hres htop => ?_, fun s rest hc hf he hno => ?_,
    fun s t i hi hrun hpc _ ht => ?_⟩
  · have hnext : nextCall { s with env := rest } = some op :=
      nextCall_eq_some_iff.2 ⟨⟨calls, hcalls⟩, hrun, hpc, hres, htop⟩
    rw [step_of_env hc hf he, takeMove, hostStart_of_nextCall hnext, hcalls]
    rfl
  · have hnext : nextCall { s with env := rest } = none := nextCall_eq_none hno
    rw [step_of_env hc hf he, takeMove, hostStart_of_noNextCall hnext]
  · calc exec i s = .next t ↔ opStep i 1 (startOp i s) = .ok t := by
          rw [exec_at_rest hi hrun hpc, finish_next_iff_of_noFault ht]
      _ ↔ exec i (startOp i s) = .next t := by rw [exec_startOp hi hrun, finish_next_iff_of_noFault ht]

/-! ### The power cycle -/

theorem hostPowerCycle_of_noOperation {s : State} (calls : List Instr) (hr : s.fg = .running) (hp : s.fcl.pc = none) :
    hostPowerCycle calls s = { powerCycle s with calls := calls } := by
  simp [hostPowerCycle, noOperation, hr, hp]

theorem length_freeBytes (draw n : Nat) : (freeBytes draw n).length = n := by
  simp [freeBytes]

/-- P-reset (R322) holds after a power cycle from any state, whatever list of calls the launch begins with. -/
theorem pReset_powerCycle (calls : List Instr) (s : State) : PReset { powerCycle s with calls := calls } where
  mode := rfl
  counters := ⟨rfl, rfl, rfl, rfl, rfl⟩
  buffers := ⟨length_freeBytes _ _, length_freeBytes _ _⟩
  foreground := rfl
  bus := ⟨rfl, rfl⟩
  fcl := rfl
  trace := rfl
  power := rfl
  busy := rfl
  pow2Pending := rfl
  frame := rfl
  pagebuf := length_freeBytes _ _

section
variable {c : Config} {n : Nat} {d : Device}

theorem powerCycleDevice_array (hb : d.busy = false) (hp : d.pow2Pending = false) :
    (powerCycleDevice c n d).array = d.array := by
  simp [powerCycleDevice, hb, hp]

theorem powerCycleDevice_format (hp : d.pow2Pending = false) : (powerCycleDevice c n d).format = d.format := by
  simp [powerCycleDevice, hp]

/-- R245, R248: the reformat takes effect where the device has completed it. -/
theorem powerCycleDevice_format_reformatted (hb : d.busy = false) (hp : d.pow2Pending = true) :
    (powerCycleDevice c n d).format = .pow2 := by
  simp [powerCycleDevice, hb, hp]

end

/-- With no operation running, a listed power cycle is carried out. -/
theorem step_powerCycle {s : State} {calls : List Instr} {rest : List Move} (hc : s.cfg.firstBytesDistinct = true)
    (hf : s.faults = []) (he : s.env = .powerCycle calls :: rest) (hr : s.fg = .running) (hp : s.fcl.pc = none) :
    step s = .next { powerCycle { s with env := rest } with calls := calls } := by
  rw [step_of_env hc hf he, takeMove, hostPowerCycle_of_noOperation (s := { s with env := rest }) calls hr hp]

/-- Settles O41: the block's values are P-reset, and the device's array and layout go by what it had pending. -/
theorem powerCycleResetsTheBlock : Obligations.PowerCycleResetsTheBlock := fun _ calls _ hc hf he hrun hpc =>
  ⟨_, step_powerCycle hc hf he hrun hpc, rfl, rfl, rfl, rfl, pReset_powerCycle calls _,
    fun hb hp => ⟨powerCycleDevice_format hp, fun a => congrArg (·.read a) (powerCycleDevice_array hb hp)⟩,
    powerCycleDevice_format_reformatted, fun _ => powerCycleDevice_format⟩

end Sys2Proof.Machine
end
